-- ==== Sys2Proof/Word.lean ====
section
/-! DEFINITION. The word types of the engine (spec/00_scope.md R12, R13, R21): unsigned bit strings. -/

namespace Sys2Proof

/-- A byte: 8 bits, bit 0 the least significant (R13). -/
abbrev Byte := BitVec 8

/-- A 16-bit field: `rx`, `tx`, `mask`, `window`, lengths, checksums, the status word (R12). -/
abbrev Half := BitVec 16

/-- A 32-bit count of milliseconds: `timer` and TICK's operand (10_state.md R49). -/
abbrev Millis := BitVec 32

end Sys2Proof
end

