-- ==== Sys2Proof/Config.lean ====
section
/-! DEFINITION. What is fixed for one instance of the engine (spec/00_scope.md R9), the fixed constants (R11), and the
free value of the spec's `draw()` (R14). -/

namespace Sys2Proof

/-- The configuration parameters of R9. Every value is admitted by the type; `rawDump = true` is refused by every
operation (R16, D27). A claim quantifies over all of them. -/
structure Config where
  /-- `use_checksum`: report mismatches via status bit 0. -/
  useChecksum : Bool
  /-- `stage_on_checksum`: gate FIFO commits on the packet's checksum. -/
  stageOnChecksum : Bool
  /-- `rising_only_isr`: the edge discipline, false = dual-edge, true = rising-only (40_bit_shifter.md R136). -/
  risingOnlyIsr : Bool
  /-- `raw_dump`: in scope only with the value false. -/
  rawDump : Bool
  /-- `DATA_PACKET_COUNT`, loaded by INIT. -/
  dataPacketCount : Byte
  /-- `UNTRANSMITTED_COUNT`, loaded by DATA. -/
  untransmittedCount : Byte
  /-- `BUSY_COUNT`, loaded by PRINT. -/
  busyCount : Byte
  /-- `TIMEOUT_MS`, loaded into `timer` by every transition and by a preamble match. -/
  timeoutMs : Millis
  deriving DecidableEq, Repr

/-- R9's defaults for the counts and the timeout. The three open Booleans are those of the default configuration of
95_test_vectors.md. DESIGN CHOICE (log 3), safe: no statement rests on them. -/
def Config.default : Config :=
  { useChecksum := true, stageOnChecksum := false, risingOnlyIsr := false, rawDump := false,
    dataPacketCount := 6#8, untransmittedCount := 3#8, busyCount := 3#8, timeoutMs := 5000#32 }

/-- The free value of `draw()` (R14): the unspecified byte of the `n`-th draw. It has no body, so nothing can be proved of
its value. DESIGN CHOICE (log 6), safe. -/
opaque Config.freeByte : Nat → Byte

/-- The sync word `MAGIC` (R11, 30_encoding.md R101). -/
def magic : Half := 0x8833#16

/-- The device ID (R11, 30_encoding.md R112). -/
def deviceId : Byte := 0x81#8

end Sys2Proof
end

