-- ==== Sys2Proof/Syntax.lean ====
section
/-! DEFINITION. The instructions of spec/opcode_table.json, one constructor per row, and the two encoded forms in which an
instruction reaches a port: a wire frame (spec/30_encoding.md R100) and a transaction request (R120). -/

namespace Sys2Proof

/-- What the master sends in one frame beside the sync bytes and the command byte (R100). The length field is the number
of payload bytes. -/
structure Frame where
  /-- COMPRESSION. -/
  compression : Byte
  /-- PAYLOAD: the length field `L` is the length of this list. -/
  payload : List Byte
  /-- The checksum field `C`: its low byte travels first (R103). Any value may be sent, a wrong one too. -/
  checksum : Half
  /-- The master's dummy bytes, DUMMY0 in the high half: "ignored" by the engine (R100). -/
  dummy : Half
  deriving DecidableEq, Repr

/-- The six classes of command byte (R110). -/
inductive Command
  | init | print | data | break_ | inquiry | unknown
  deriving DecidableEq, Repr

/-- One constructor per row of spec/opcode_table.json. The first six are the command-byte rows: the master sends one whole
frame with that command (R110, R122, R123; log 1). The others are the transactions of the two ports (R120). -/
inductive Instr
  /-- INIT, 43_commands.md R180. -/
  | cmdInit (f : Frame)
  /-- PRINT, R181. -/
  | cmdPrint (f : Frame)
  /-- DATA, R182. -/
  | cmdData (f : Frame)
  /-- BREAK, R183. -/
  | cmdBreak (f : Frame)
  /-- INQUIRY, R184. -/
  | cmdInquiry (f : Frame)
  /-- UNKNOWN_COMMAND, R187: `c` is any byte but the five above. -/
  | cmdUnknown (c : Byte) (f : Frame)
  /-- INIT_ENGINE(cap), 44_host_interface.md R200. -/
  | initEngine (cap : Nat)
  /-- RESET, R201. -/
  | reset
  /-- TICK(elapsed_ms), R202. -/
  | tick (elapsed : Millis)
  /-- ON_EDGE(clock_level, sin), 40_bit_shifter.md R139. -/
  | onEdge (clockLevel sin : Bool)
  /-- ON_RISING(sin), R140. -/
  | onRising (sin : Bool)
  /-- AVAILABLE, 44_host_interface.md R203. -/
  | available
  /-- TAKE_ONE, R204. -/
  | takeOne
  /-- PEEK(offset), R205. -/
  | peek (offset : Nat)
  /-- CONSUME_INIT, R210. -/
  | consumeInit
  /-- CONSUME_DATA, R211. -/
  | consumeData
  /-- CONSUME_PRINT, R212. -/
  | consumePrint
  /-- CONSUME_BREAK, R213. -/
  | consumeBreak
  /-- CONSUME_INQUIRY, R214. -/
  | consumeInquiry
  /-- CONSUME_DATA_END, R215. -/
  | consumeDataEnd
  /-- CONSUME_PACKET_COMPLETED, R216. -/
  | consumePacketCompleted
  /-- PI_SHEETS, R230. -/
  | piSheets
  /-- PI_LF_BEFORE, R231. -/
  | piLfBefore
  /-- PI_LF_AFTER, R232. -/
  | piLfAfter
  /-- PI_PALETTE, R233. -/
  | piPalette
  /-- PI_DENSITY, R234. -/
  | piDensity
  /-- STATUS_GET_BIT(iii), R221. -/
  | statusGetBit (i : BitVec 3)
  /-- STATUS_SET_BIT(iii, v), R220. -/
  | statusSetBit (i : BitVec 3) (v : Bool)
  /-- STATUS_WORD, R222. -/
  | statusWord
  deriving DecidableEq, Repr

/-- One transaction presented on a port: the 8-bit code of R120 and the operand lines it may read. "Operands travel with
the operation, not in the code" (R120): an operation reads the lines its row names and no other. DESIGN CHOICE (log 8). -/
structure Request where
  /-- The transaction code. -/
  code : Byte
  /-- The natural operand: `cap` of INIT_ENGINE, `offset` of PEEK. -/
  natural : Nat
  /-- `elapsed_ms` of TICK. -/
  millis : Millis
  /-- `clock_level` of ON_EDGE, high = true (R118). -/
  clockLevel : Bool
  /-- `sin` of the edge operations and `v` of STATUS_SET_BIT, high = true. -/
  bit : Bool
  deriving DecidableEq, Repr

/-- What the environment can present to the engine: a transaction on a port, or bytes that the master sends on the serial
line (R8, R122). -/
inductive Input
  | request (r : Request)
  | wire (bytes : List Byte)
  deriving DecidableEq, Repr

end Sys2Proof
end

