-- ==== Sys2Proof/WellFormed.lean ====
section
/-! DEFINITION. Which terms of `Instr` are instructions: the length of a frame fits its 16-bit field
(spec/30_encoding.md R100, R123) and an unknown command is none of the five known ones (R110, R111). -/

namespace Sys2Proof

/-- The payload's length fits the LENGTH field, "a byte list P of length L < 65536" (R123). -/
def Frame.wf (f : Frame) : Bool := decide (f.payload.length < 65536)

/-- The five known command bytes (R110). -/
def knownCommandBytes : List Byte := [0x01#8, 0x02#8, 0x04#8, 0x08#8, 0x0F#8]

/-- Well-formed instructions. Every operand of the transactions is bounded by its type. -/
def Instr.wf : Instr → Bool
  | .cmdInit f => f.wf
  | .cmdPrint f => f.wf
  | .cmdData f => f.wf
  | .cmdBreak f => f.wf
  | .cmdInquiry f => f.wf
  | .cmdUnknown c f => f.wf && !(knownCommandBytes.contains c)
  | .initEngine _ => true
  | .reset => true
  | .tick _ => true
  | .onEdge _ _ => true
  | .onRising _ => true
  | .available => true
  | .takeOne => true
  | .peek _ => true
  | .consumeInit => true
  | .consumeData => true
  | .consumePrint => true
  | .consumeBreak => true
  | .consumeInquiry => true
  | .consumeDataEnd => true
  | .consumePacketCompleted => true
  | .piSheets => true
  | .piLfBefore => true
  | .piLfAfter => true
  | .piPalette => true
  | .piDensity => true
  | .statusGetBit _ => true
  | .statusSetBit _ _ => true
  | .statusWord => true

end Sys2Proof
end

