-- ==== Sys2Proof/Decode.lean ====
section
/-! DEFINITION. Decoding what the environment presents to a port, total and rejecting by name; then the encoder, written
from the same tables (spec/30_encoding.md R100, R110, R120, R121). -/

namespace Sys2Proof

/-- Why an input is no instruction of the table. -/
inductive DecodeError
  /-- A reserved transaction code (R121). -/
  | reservedCode (code : Byte)
  /-- Wire bytes that do not begin with the sync word 0x88 0x33 (R100). -/
  | noSync
  /-- Wire bytes that end before the LENGTH field does. -/
  | shortFrame
  /-- Wire bytes whose number is not `10 + L` (R100). -/
  | lengthMismatch
  deriving DecidableEq, Repr

/-- The command byte map (R110): all 8 bits are matched. -/
def classify (c : Byte) : Command :=
  if c = 0x01#8 then .init
  else if c = 0x02#8 then .print
  else if c = 0x04#8 then .data
  else if c = 0x08#8 then .break_
  else if c = 0x0F#8 then .inquiry
  else .unknown

/-- The instruction of a command byte and the rest of its frame. -/
def commandInstr (c : Byte) (f : Frame) : Instr :=
  match classify c with
  | .init => .cmdInit f
  | .print => .cmdPrint f
  | .data => .cmdData f
  | .break_ => .cmdBreak f
  | .inquiry => .cmdInquiry f
  | .unknown => .cmdUnknown c f

/-- A frame from the bytes the master sends, by the offsets of R100's table. -/
def decodeFrame : List Byte → Except DecodeError Instr
  | s0 :: s1 :: cmd :: comp :: lenLo :: lenHi :: rest =>
    if s0 = 0x88#8 ∧ s1 = 0x33#8 then
      let n := (lenHi ++ lenLo).toNat
      match rest.drop n with
      | [c0, c1, d0, d1] =>
        .ok (commandInstr cmd
          { compression := comp, payload := rest.take n, checksum := c1 ++ c0, dummy := d0 ++ d1 })
      | _ => .error .lengthMismatch
    else .error .noSync
  | _ => .error .shortFrame

/-- A transaction from its code and operand lines (R120); the reserved codes of R121 are rejected. -/
def decodeRequest (r : Request) : Except DecodeError Instr :=
  if r.code = 0x00#8 then .ok (.initEngine r.natural)
  else if r.code = 0x01#8 then .ok .reset
  else if r.code = 0x02#8 then .ok (.tick r.millis)
  else if r.code = 0x03#8 then .ok (.onEdge r.clockLevel r.bit)
  else if r.code = 0x04#8 then .ok (.onRising r.bit)
  else if r.code = 0x05#8 then .ok .available
  else if r.code = 0x06#8 then .ok .takeOne
  else if r.code = 0x07#8 then .ok (.peek r.natural)
  else if r.code = 0x08#8 then .ok .consumeInit
  else if r.code = 0x09#8 then .ok .consumeData
  else if r.code = 0x0A#8 then .ok .consumePrint
  else if r.code = 0x0B#8 then .ok .consumeBreak
  else if r.code = 0x0C#8 then .ok .consumeInquiry
  else if r.code = 0x0D#8 then .ok .consumeDataEnd
  else if r.code = 0x0E#8 then .ok .consumePacketCompleted
  else if r.code = 0x10#8 then .ok .piSheets
  else if r.code = 0x11#8 then .ok .piLfBefore
  else if r.code = 0x12#8 then .ok .piLfAfter
  else if r.code = 0x13#8 then .ok .piPalette
  else if r.code = 0x14#8 then .ok .piDensity
  else if r.code = 0x30#8 then .ok .statusWord
  else if r.code.extractLsb' 3 5 = 0b00100#5 then .ok (.statusGetBit (r.code.extractLsb' 0 3))
  else if r.code.extractLsb' 3 5 = 0b00101#5 then .ok (.statusSetBit (r.code.extractLsb' 0 3) r.bit)
  else .error (.reservedCode r.code)

/-- The decoder: total on whatever a port is given. -/
def decode : Input → Except DecodeError Instr
  | .request r => decodeRequest r
  | .wire bytes => decodeFrame bytes

/-- The wire bytes of a frame with command byte `c`, sync bytes first (R100, R123). -/
def frameBytes (c : Byte) (f : Frame) : List Byte :=
  let len := BitVec.ofNat 16 f.payload.length
  [0x88#8, 0x33#8, c, f.compression, len.extractLsb' 0 8, len.extractLsb' 8 8] ++ f.payload ++
    [f.checksum.extractLsb' 0 8, f.checksum.extractLsb' 8 8, f.dummy.extractLsb' 8 8, f.dummy.extractLsb' 0 8]

/-- A request with every operand line low. -/
def Request.ofCode (code : Byte) : Request :=
  { code := code, natural := 0, millis := 0#32, clockLevel := false, bit := false }

/-- The encoder: the wire bytes of a command row, the code and operand lines of a transaction (R100, R110, R120). Lines
that the operation does not read are low. -/
def encode : Instr → Input
  | .cmdInit f => .wire (frameBytes 0x01#8 f)
  | .cmdPrint f => .wire (frameBytes 0x02#8 f)
  | .cmdData f => .wire (frameBytes 0x04#8 f)
  | .cmdBreak f => .wire (frameBytes 0x08#8 f)
  | .cmdInquiry f => .wire (frameBytes 0x0F#8 f)
  | .cmdUnknown c f => .wire (frameBytes c f)
  | .initEngine cap => .request { Request.ofCode 0x00#8 with natural := cap }
  | .reset => .request (Request.ofCode 0x01#8)
  | .tick e => .request { Request.ofCode 0x02#8 with millis := e }
  | .onEdge c d => .request { Request.ofCode 0x03#8 with clockLevel := c, bit := d }
  | .onRising d => .request { Request.ofCode 0x04#8 with bit := d }
  | .available => .request (Request.ofCode 0x05#8)
  | .takeOne => .request (Request.ofCode 0x06#8)
  | .peek k => .request { Request.ofCode 0x07#8 with natural := k }
  | .consumeInit => .request (Request.ofCode 0x08#8)
  | .consumeData => .request (Request.ofCode 0x09#8)
  | .consumePrint => .request (Request.ofCode 0x0A#8)
  | .consumeBreak => .request (Request.ofCode 0x0B#8)
  | .consumeInquiry => .request (Request.ofCode 0x0C#8)
  | .consumeDataEnd => .request (Request.ofCode 0x0D#8)
  | .consumePacketCompleted => .request (Request.ofCode 0x0E#8)
  | .piSheets => .request (Request.ofCode 0x10#8)
  | .piLfBefore => .request (Request.ofCode 0x11#8)
  | .piLfAfter => .request (Request.ofCode 0x12#8)
  | .piPalette => .request (Request.ofCode 0x13#8)
  | .piDensity => .request (Request.ofCode 0x14#8)
  | .statusGetBit i => .request (Request.ofCode (0b00100#5 ++ i))
  | .statusSetBit i v => .request { Request.ofCode (0b00101#5 ++ i) with bit := v }
  | .statusWord => .request (Request.ofCode 0x30#8)

/-- The correct checksum of a frame, R103: the sum of command, compression, the two length bytes and the payload,
modulo 65536. -/
def frameChecksum (c : Byte) (f : Frame) : Half :=
  let len := BitVec.ofNat 16 f.payload.length
  c.setWidth 16 + f.compression.setWidth 16 + (len.extractLsb' 0 8).setWidth 16 + (len.extractLsb' 8 8).setWidth 16 +
    (f.payload.map (BitVec.setWidth 16)).sum

/-- `PKT(cmd, comp, P)` of R123: correct checksum, the master's dummy bytes 00. -/
def pkt (c comp : Byte) (payload : List Byte) : Frame :=
  let f : Frame := { compression := comp, payload := payload, checksum := 0#16, dummy := 0#16 }
  { f with checksum := frameChecksum c f }

/-- One 8-bit table word as an input with every other bit 0. The two kinds of row share the same 256 numbers: a number that
is a transaction code is that transaction, and a number that is reserved as a transaction code (R121) is read as the command
byte of a wire frame, with the sync bytes in front. DESIGN CHOICE (log 7). -/
def tableInput (w : Nat) : Input :=
  let code := BitVec.ofNat 8 w
  match decodeRequest (Request.ofCode code) with
  | .ok _ => .request (Request.ofCode code)
  | .error _ => .wire [0x88#8, 0x33#8, code, 0#8, 0#8, 0#8, 0#8, 0#8, 0#8, 0#8]

/-- What the decoder reads from a word of the opcode table: every row of the table has 8 bits. -/
def decodeTableWord (nbits w : Nat) : Option Instr :=
  if nbits = 8 ∧ w < 256 then
    match decode (tableInput w) with
    | .ok i => some i
    | .error _ => none
  else none

/-! ## The opcode table's own masks -/

/-- The row of spec/opcode_table.json a constructor stands for: its mask and its match on the code byte. The six command
rows are matched on the command byte; UNKNOWN_COMMAND has mask 0 and the lowest priority. -/
def tableRow : Instr → Byte × Byte
  | .cmdInit _ => (0xFF#8, 0x01#8)
  | .cmdPrint _ => (0xFF#8, 0x02#8)
  | .cmdData _ => (0xFF#8, 0x04#8)
  | .cmdBreak _ => (0xFF#8, 0x08#8)
  | .cmdInquiry _ => (0xFF#8, 0x0F#8)
  | .cmdUnknown _ _ => (0x00#8, 0x00#8)
  | .initEngine _ => (0xFF#8, 0x00#8)
  | .reset => (0xFF#8, 0x01#8)
  | .tick _ => (0xFF#8, 0x02#8)
  | .onEdge _ _ => (0xFF#8, 0x03#8)
  | .onRising _ => (0xFF#8, 0x04#8)
  | .available => (0xFF#8, 0x05#8)
  | .takeOne => (0xFF#8, 0x06#8)
  | .peek _ => (0xFF#8, 0x07#8)
  | .consumeInit => (0xFF#8, 0x08#8)
  | .consumeData => (0xFF#8, 0x09#8)
  | .consumePrint => (0xFF#8, 0x0A#8)
  | .consumeBreak => (0xFF#8, 0x0B#8)
  | .consumeInquiry => (0xFF#8, 0x0C#8)
  | .consumeDataEnd => (0xFF#8, 0x0D#8)
  | .consumePacketCompleted => (0xFF#8, 0x0E#8)
  | .piSheets => (0xFF#8, 0x10#8)
  | .piLfBefore => (0xFF#8, 0x11#8)
  | .piLfAfter => (0xFF#8, 0x12#8)
  | .piPalette => (0xFF#8, 0x13#8)
  | .piDensity => (0xFF#8, 0x14#8)
  | .statusGetBit _ => (0xF8#8, 0x20#8)
  | .statusSetBit _ _ => (0xF8#8, 0x28#8)
  | .statusWord => (0xFF#8, 0x30#8)

/-- The code byte of an encoded instruction: the transaction code, or the command byte at offset 2 of a frame (R100). -/
def codeByte : Input → Byte
  | .request r => r.code
  | .wire bytes => bytes.getD 2 0#8

end Sys2Proof
end

