-- ==== Sys2Proof/Machine/State.lean ====
section
/-! DEFINITION. The state of the engine, by its five components (spec/00_scope.md R2, 10_state.md R30), the reasons an
operation is not completed (R16, 93_implementation_defined.md I17), and the states after reset and before any
INIT_ENGINE. -/

namespace Sys2Proof.Machine

/-- Transfer mode (10_state.md R34). -/
inductive Mode
  | idle | byte | wordBE | wordLE
  deriving DecidableEq, Repr

/-- Packet parse state (R41). -/
inductive PState
  | header1 | header2 | payload | checksum | dummy
  deriving DecidableEq, Repr

/-- The bit shifter (R34–R38). A line level is a Bool, high = true. -/
structure Shifter where
  mode : Mode
  mask : Half
  rx : Half
  tx : Half
  sout : Bool
  deriving DecidableEq, Repr

/-- The preamble synchroniser (R39, R40). -/
structure Sync where
  window : Half
  synced : Bool
  deriving DecidableEq, Repr

/-- The packet state machine's registers (R41–R44). -/
structure Packet where
  pstate : PState
  command : Byte
  compression : Byte
  dataLength : Half
  dataIndex : Half
  receivedChecksum : Half
  computedChecksum : Half
  deriving DecidableEq, Repr

/-- The status byte and the three sequencing counters (R45, R48). -/
structure Sequencer where
  status : Byte
  dataPacketsRemaining : Byte
  untransmittedRemaining : Byte
  busyRemaining : Byte
  deriving DecidableEq, Repr

/-- The four bytes of `print_instruction` (R47; 30_encoding.md R115). -/
structure PrintInstruction where
  byte0 : Byte
  byte1 : Byte
  byte2 : Byte
  byte3 : Byte
  deriving DecidableEq, Repr

/-- The seven notification latches (R50). -/
structure Latches where
  initReceived : Bool
  dataPacketReceived : Bool
  dataEndReceived : Bool
  printInstructionReceived : Bool
  breakReceived : Bool
  inquiryReceived : Bool
  packetCompleted : Bool
  deriving DecidableEq, Repr

/-- The payload FIFO: its capacity and its two byte sequences, oldest byte first (R33, R52). -/
structure Fifo where
  cap : Nat
  committed : List Byte
  staged : List Byte
  deriving DecidableEq, Repr

/-- The value an operation returned on its port (00_scope.md R15; the result column of 30_encoding.md R120). DESIGN CHOICE
(log 5): kept in State because `exec` answers a state. -/
inductive Result
  /-- The operation returns nothing (INIT_ENGINE, RESET, STATUS_SET_BIT), or none has run. -/
  | none
  /-- A Boolean: TICK's did_reset, a consumed latch. -/
  | bool (b : Bool)
  /-- One bit, high = true: `sout` from an edge operation, a status bit. -/
  | level (b : Bool)
  /-- AVAILABLE's count. -/
  | count (n : Nat)
  /-- A FIFO byte. -/
  | byte (b : Byte)
  /-- "8 bits or NONE": a print accessor. -/
  | byteOrNone (o : Option Byte)
  /-- "4 bits or NONE": a print accessor. -/
  | nibbleOrNone (o : Option (BitVec 4))
  /-- The status word. -/
  | word (w : Half)
  /-- The bytes the master read while it sent bytes (30_encoding.md R122, 40_bit_shifter.md R143). -/
  | back (bytes : List Byte)
  deriving DecidableEq, Repr

/-- The whole state. The fields up to `fifo` are the spec's (R30); `config`, `inputs`, `result` and `draws` are the model's
own (logs 3, 2, 5, 6). -/
structure State where
  /-- `initialised` (R32). -/
  initialised : Bool
  shifter : Shifter
  sync : Sync
  packet : Packet
  seq : Sequencer
  /-- `timer`, the packet timeout in milliseconds, 0 = disarmed (R49). -/
  timer : Millis
  printInstruction : PrintInstruction
  latches : Latches
  /-- `reset_report` (R51). -/
  resetReport : Bool
  fifo : Fifo
  /-- The parameters of R9, fixed for the instance: no operation writes them (log 3). -/
  config : Config
  /-- What the environment presents to the ports, oldest first: the schedule of R88 (log 2). -/
  inputs : List Input
  /-- What the last operation returned (log 5). -/
  result : Result
  /-- How many unspecified bytes have been drawn (log 6). -/
  draws : Nat
  deriving DecidableEq, Repr

/-- Why the machine stops. -/
inductive Fault
  /-- Raised by `step` before any operation, and by a rising edge and a sent frame themselves, in a state that breaks the
  control-point invariant R53, from which a model "must not take a step" (93_implementation_defined.md I17, `stuck`). No
  reachable state breaks it. DEDUCED (log 9), safe: the machine stops where the spec gives no rule. -/
  | brokenControlPoint
  deriving DecidableEq, Repr

/-- Why an operation has no meaning (00_scope.md R16). Each is safe: the spec itself refuses the case. -/
inductive Refusal
  /-- Raised by `exec`'s arms for an instruction whose meaning is not written yet; none is left. Safe. -/
  | notModelled (mnemonic : String)
  /-- Raised by every operation before the first INIT_ENGINE (D26, R32). Safe. -/
  | notInitialised
  /-- Raised by every operation of a configuration with `raw_dump = true` (D27). Safe. -/
  | rawDump
  /-- Raised by ON_EDGE under the rising-only discipline and by ON_RISING under the dual-edge one (D31, R136). Safe. -/
  | wrongDiscipline
  /-- Raised by `step` for a request with a reserved transaction code (D40, R121). Safe. -/
  | reservedCode (code : Byte)
  deriving DecidableEq, Repr

/-! ## Values -/

/-- The shifter after reset: no transfer, output low (70_reset_and_hazards.md R270). -/
def Shifter.zero : Shifter := { mode := .idle, mask := 0#16, rx := 0#16, tx := 0#16, sout := false }

/-- The synchroniser after reset (R270). -/
def Sync.zero : Sync := { window := 0#16, synced := false }

/-- The parse registers after reset (R270). -/
def Packet.zero : Packet :=
  { pstate := .header1, command := 0#8, compression := 0#8, dataLength := 0#16, dataIndex := 0#16,
    receivedChecksum := 0#16, computedChecksum := 0#16 }

/-- Status and counters after reset (R270). -/
def Sequencer.zero : Sequencer :=
  { status := 0#8, dataPacketsRemaining := 0#8, untransmittedRemaining := 0#8, busyRemaining := 0#8 }

/-- The print instruction after a host reset (R270). -/
def PrintInstruction.zero : PrintInstruction := { byte0 := 0#8, byte1 := 0#8, byte2 := 0#8, byte3 := 0#8 }

/-- The latches after a host reset (R270). -/
def Latches.zero : Latches :=
  { initReceived := false, dataPacketReceived := false, dataEndReceived := false, printInstructionReceived := false,
    breakReceived := false, inquiryReceived := false, packetCompleted := false }

/-- `PostInit(cap)` (R270), for the configuration `cfg`, with no input pending. -/
def State.postInit (cfg : Config) (cap : Nat) : State :=
  { initialised := true, shifter := .zero, sync := .zero, packet := .zero, seq := .zero, timer := 0#32,
    printInstruction := .zero, latches := .zero, resetReport := false,
    fifo := { cap := cap, committed := [], staged := [] },
    config := cfg, inputs := [], result := .none, draws := 0 }

/-- The capacity `State.reset` starts with: that of the start state P0 of 95_test_vectors.md. DESIGN CHOICE (log 4),
unsafe for a claim about this one value. -/
def State.resetCap : Nat := 4096

/-- The machine right after reset: `PostInit(CAP)` (R270, R271), in the default configuration. -/
def State.reset : State := State.postInit Config.default State.resetCap

/-- The machine before any INIT_ENGINE: `initialised` is false (R32). The spec gives no other field a value there; they are
zero. DESIGN CHOICE (log 4), safe: every operation but INIT_ENGINE, which writes every field, is refused. -/
def State.powerOn (cfg : Config) : State := { State.postInit cfg 0 with initialised := false }

/-! ## Updates, one field each -/

def State.withInitialised (v : Bool) (s : State) : State := { s with initialised := v }
def State.withShifter (v : Shifter) (s : State) : State := { s with shifter := v }
def State.withSync (v : Sync) (s : State) : State := { s with sync := v }
def State.withPacket (v : Packet) (s : State) : State := { s with packet := v }
def State.withSeq (v : Sequencer) (s : State) : State := { s with seq := v }
def State.withTimer (v : Millis) (s : State) : State := { s with timer := v }
def State.withPrintInstruction (v : PrintInstruction) (s : State) : State := { s with printInstruction := v }
def State.withLatches (v : Latches) (s : State) : State := { s with latches := v }
def State.withResetReport (v : Bool) (s : State) : State := { s with resetReport := v }
def State.withFifo (v : Fifo) (s : State) : State := { s with fifo := v }
def State.withConfig (v : Config) (s : State) : State := { s with config := v }
def State.withInputs (v : List Input) (s : State) : State := { s with inputs := v }
def State.withResult (v : Result) (s : State) : State := { s with result := v }
def State.withDraws (v : Nat) (s : State) : State := { s with draws := v }

end Sys2Proof.Machine
end

