-- ==== Sys2Proof/Machine/Operands.lean ====
section
/-! DEFINITION. Operand forms: byte order, the transfer accessors RxByte and RxWord (spec/40_bit_shifter.md R137, R138), the
fields assembled from them (30_encoding.md R116), bits on the wire (R114), the print-instruction bytes (R115). -/

namespace Sys2Proof.Machine

/-- `v[7:0]`. -/
def loByte (v : Half) : Byte := v.extractLsb' 0 8

/-- `v[15:8]`. -/
def hiByte (v : Half) : Byte := v.extractLsb' 8 8

/-- `swap16` (00_scope.md R13): the two bytes exchanged. -/
def swap16 (v : Half) : Half := loByte v ++ hiByte v

/-- `zext_16` of a byte. -/
def zext16 (b : Byte) : Half := b.setWidth 16

/-- `RxByte()` (R137): the low byte of the RX accumulator. -/
def rxByte (h : Shifter) : Byte := loByte h.rx

/-- `RxWord()` (R138): swapped for WordLE, so the first wire byte is the low byte. -/
def rxWord (h : Shifter) : Half := if h.mode = .wordLE then swap16 h.rx else h.rx

/-- The mask of the first bit of a transfer (R131): the MSB of the mode's width. -/
def startMask : Mode → Half
  | .idle => 0x0000#16
  | .byte => 0x0080#16
  | .wordBE => 0x8000#16
  | .wordLE => 0x8000#16

/-- The bits of a byte in wire order, most significant first (20_memory.md R81). -/
def byteBits (b : Byte) : List Bool :=
  [b.getLsbD 7, b.getLsbD 6, b.getLsbD 5, b.getLsbD 4, b.getLsbD 3, b.getLsbD 2, b.getLsbD 1, b.getLsbD 0]

/-- A byte from bits in wire order, most significant first. -/
def bitsByte (bits : List Bool) : Byte :=
  bits.foldl (fun acc d => (acc <<< 1) ||| (BitVec.ofBool d).setWidth 8) 0#8

/-- Byte `i` of the print instruction (R80, i in 0..3). -/
def PrintInstruction.get (p : PrintInstruction) (i : BitVec 2) : Byte :=
  if i = 0#2 then p.byte0 else if i = 1#2 then p.byte1 else if i = 2#2 then p.byte2 else p.byte3

/-- `print_instruction[i] <- b`, for the 16-bit index `data_index`; a write at an index of 4 or more is dropped (D12). -/
def PrintInstruction.put (i : Half) (b : Byte) (p : PrintInstruction) : PrintInstruction :=
  if i = 0#16 then { p with byte0 := b }
  else if i = 1#16 then { p with byte1 := b }
  else if i = 2#16 then { p with byte2 := b }
  else if i = 3#16 then { p with byte3 := b }
  else p

/-- Number of sheets: byte 0 (R115). -/
def PrintInstruction.sheets (p : PrintInstruction) : Byte := p.get 0#2

/-- Linefeed-before: the high nibble of byte 1 (R115, R116). -/
def PrintInstruction.lfBefore (p : PrintInstruction) : BitVec 4 := (p.get 1#2).extractLsb' 4 4

/-- Linefeed-after: the low nibble of byte 1 (R115, R116). -/
def PrintInstruction.lfAfter (p : PrintInstruction) : BitVec 4 := (p.get 1#2).extractLsb' 0 4

/-- Palette value: byte 2 (R115). -/
def PrintInstruction.palette (p : PrintInstruction) : Byte := p.get 2#2

/-- Print density: byte 3 (R115). -/
def PrintInstruction.density (p : PrintInstruction) : Byte := p.get 3#2

end Sys2Proof.Machine
end

