-- ==== Sys2Proof/Machine/Flags.lean ====
section
/-! DEFINITION. The status byte and its eight bits (spec/10_state.md R45, R46), the checksum comparison
(42_packet_fsm.md R168), and the notification latches a command raises (43_commands.md R186). -/

namespace Sys2Proof.Machine

/-- `v[i]` of a status byte. -/
def getStatusBit (st : Byte) (i : BitVec 3) : Bool := st.getLsbD i.toNat

/-- `status[i] <- v`: bit i is written and the other seven bits are unchanged (R45). -/
def putStatusBit (st : Byte) (i : BitVec 3) (v : Bool) : Byte :=
  if v then st ||| (1#8 <<< i.toNat) else st &&& ~~~(1#8 <<< i.toNat)

/-- Bit 0, CHECKSUM_ERROR. -/
def checksumErrorBit : BitVec 3 := 0#3
/-- Bit 1, BUSY. -/
def busyBit : BitVec 3 := 1#3
/-- Bit 2, BUFFER_FULL. -/
def bufferFullBit : BitVec 3 := 2#3
/-- Bit 3, UNPROCESSED_DATA. -/
def unprocessedDataBit : BitVec 3 := 3#3
/-- Bit 4, PACKET_ERROR: foreground only. -/
def packetErrorBit : BitVec 3 := 4#3
/-- Bit 5, PAPER_JAM: foreground only. -/
def paperJamBit : BitVec 3 := 5#3
/-- Bit 6, OTHER_ERROR: foreground only. -/
def otherErrorBit : BitVec 3 := 6#3
/-- Bit 7, LOW_BATTERY: foreground only. -/
def lowBatteryBit : BitVec 3 := 7#3

/-- `status[i] <- v` on the sequencer. -/
def Sequencer.putBit (i : BitVec 3) (v : Bool) (q : Sequencer) : Sequencer :=
  { q with status := putStatusBit q.status i v }

/-- The status word `0x81 ++ status` (R46): the device ID is hardwired. -/
def statusWordOf (q : Sequencer) : Half := deviceId ++ q.status

/-- The two sums of a packet agree (R168, R170). -/
def sumsAgree (p : Packet) : Bool := p.computedChecksum == p.receivedChecksum

/-- `computed_checksum` with the header folded in, modulo 65536 (R168). -/
def foldHeader (p : Packet) : Half :=
  p.computedChecksum + zext16 p.command + zext16 p.compression + zext16 (loByte p.dataLength) +
    zext16 (hiByte p.dataLength)

/-- `RaiseFlag(c)` for the command byte `c` of a packet whose `data_length` is `len` (R180–R187). An unknown command raises
none (R187). -/
def raiseFlag (c : Byte) (len : Half) (l : Latches) : Latches :=
  match classify c with
  | .init => { l with initReceived := true }
  | .print => { l with printInstructionReceived := true }
  | .data => if len = 0#16 then { l with dataEndReceived := true } else { l with dataPacketReceived := true }
  | .break_ => { l with breakReceived := true }
  | .inquiry => { l with inquiryReceived := true }
  | .unknown => l

end Sys2Proof.Machine
end

