-- ==== Sys2Proof/Machine/Ops.lean ====
section
/-! DEFINITION. The shared operations: shifter primitives (spec/40_bit_shifter.md R131–R135), FIFO primitives
(20_memory.md R74–R79), the control-point invariant (10_state.md R53), the two resets (70_reset_and_hazards.md R271, R272),
which are the engine's only response to an error (60_exceptions.md R249: it has no exception to take), the guard every
operation stands behind (00_scope.md R16), and the taking of the next input. -/

namespace Sys2Proof.Machine

/-! ## Bit shifter -/

/-- `Begin(m, txw)` (R131). Only Idle drives the line. -/
def beginTransfer (m : Mode) (txw : Half) (h : Shifter) : Shifter :=
  match m with
  | .idle => { mode := .idle, mask := startMask .idle, rx := 0#16, tx := 0#16, sout := false }
  | .byte => { mode := .byte, mask := startMask .byte, rx := 0#16, tx := txw, sout := h.sout }
  | .wordBE => { mode := .wordBE, mask := startMask .wordBE, rx := 0#16, tx := txw, sout := h.sout }
  | .wordLE => { mode := .wordLE, mask := startMask .wordLE, rx := 0#16, tx := swap16 txw, sout := h.sout }

/-- The sample-and-shift of a rising edge within a transfer (R133). -/
def sampleBit (d : Bool) (h : Shifter) : Shifter :=
  { h with rx := if d then h.rx ||| h.mask else h.rx, mask := h.mask >>> 1 }

/-- The level a drive puts on the line: `(tx & mask) != 0` (R134, R135). -/
def driveLevel (h : Shifter) : Bool := (h.tx &&& h.mask) != 0#16

/-- `DriveFalling` and `DriveAfterRising` (R134, R135): `sout` is driven and nothing else changes. -/
def driveOut (s : State) : State := s.withShifter { s.shifter with sout := driveLevel s.shifter }

/-! ## Payload FIFO -/

/-- `RingEnqueue(b)` (R74): drop-newest when full, staged when staging is on. -/
def ringEnqueue (stage : Bool) (b : Byte) (f : Fifo) : Fifo :=
  if f.committed.length + f.staged.length ≥ f.cap then f
  else if stage then { f with staged := f.staged ++ [b] }
  else { f with committed := f.committed ++ [b] }

/-- `RingCommit()` (R75). -/
def ringCommit (f : Fifo) : Fifo := { f with committed := f.committed ++ f.staged, staged := [] }

/-- `RingDiscardStaged()` (R76). -/
def ringDiscardStaged (f : Fifo) : Fifo := { f with staged := [] }

/-- `RingClear()` (R77): CAP is kept. -/
def ringClear (f : Fifo) : Fifo := { f with committed := [], staged := [] }

/-- `draw()` (R14): the next free byte is the result, and the draw counter moves on; nothing of the spec's state changes. -/
def drawByte (s : State) : State := (s.withResult (.byte (Config.freeByte s.draws))).withDraws (s.draws + 1)

/-- `RingTake()` (R78): UNPROCESSED_DATA is cleared when the take leaves `committed` empty. On an empty FIFO the byte is
unspecified and the state does not change (D21). -/
def ringTake (s : State) : State :=
  match s.fifo.committed with
  | [] => drawByte s
  | b :: rest =>
    let t := s.withFifo { s.fifo with committed := rest }
    let u := if rest = [] then t.withSeq (t.seq.putBit unprocessedDataBit false) else t
    u.withResult (.byte b)

/-- `RingPeek(k)` (R79): offset 0 is the oldest committed byte; at or past the count the byte is unspecified (D21). -/
def ringPeek (k : Nat) (s : State) : State :=
  match s.fifo.committed[k]? with
  | some b => s.withResult (.byte b)
  | none => drawByte s

/-! ## Control point -/

/-- The packet state and the transfer mode that go together while the shifter is active (R53 (b)). -/
def pairOk : PState → Mode → Bool
  | .header1, .wordBE => true
  | .header2, .wordLE => true
  | .payload, .byte => true
  | .checksum, .wordLE => true
  | .dummy, .wordBE => true
  | _, _ => false

/-- The control-point invariant (R53): (a) awaiting the preamble, or (b) shifter active. -/
def controlPoint (s : State) : Bool :=
  if s.sync.synced then s.shifter.mask != 0#16 && pairOk s.packet.pstate s.shifter.mode
  else decide (s.shifter.mode = .idle) && s.shifter.mask == 0#16 && decide (s.packet.pstate = .header1)

/-! ## Resets -/

/-- Why a cancellation reset runs (R272). -/
inductive CancelReason
  | timeout | break_
  deriving DecidableEq, Repr

/-- `HostReset()` (R271): every field of the spec but `initialised` and `CAP`. The model's own fields are kept, and the
operation returns nothing. -/
def hostReset (s : State) : State :=
  { s with
    shifter := .zero, sync := .zero, packet := .zero, seq := .zero, timer := 0#32, printInstruction := .zero,
    latches := .zero, resetReport := false, fifo := ringClear s.fifo, result := .none }

/-- `CancelReset(reason)` (R272): kept are `initialised`, `CAP`, the print instruction and the seven latches. -/
def cancelReset (reason : CancelReason) (s : State) : State :=
  { s with
    shifter := .zero, sync := .zero, packet := .zero, seq := .zero, timer := 0#32,
    fifo := ringClear s.fifo, resetReport := decide (reason = .break_) }

/-! ## Guards -/

/-- What an operation is refused for before anything else (R16): a raw-dump configuration (D27), or no INIT_ENGINE yet
(D26). -/
def whenReady (s : State) (go : Host.Outcome State Fault Refusal) : Host.Outcome State Fault Refusal :=
  if s.config.rawDump then .refused .rawDump
  else if s.initialised then go
  else .refused .notInitialised

/-- No step is taken from a state that breaks R53 (I17). -/
def whenControlled (s : State) (go : Host.Outcome State Fault Refusal) : Host.Outcome State Fault Refusal :=
  if controlPoint s then go else .fault .brokenControlPoint

/-! ## Taking the next input -/

/-- The oldest pending input and the state without it; none when the environment presents nothing. -/
def takeInput (s : State) : Option (Input × State) :=
  match s.inputs with
  | [] => none
  | x :: rest => some (x, s.withInputs rest)

end Sys2Proof.Machine
end

