-- ==== Sys2Proof/Machine/Commands.lean ====
section
/-! DEFINITION. The command rules: the pre-dummy and post-dummy actions of each command byte and the countdown step
(spec/43_commands.md R180–R187). -/

namespace Sys2Proof.Machine

/-- `InquiryStep()` (R185): at most one counter moves per call, and none goes below 0. -/
def inquiryStep (q : Sequencer) : Sequencer :=
  if q.untransmittedRemaining = 0#8 then
    if q.busyRemaining = 0#8 then q
    else
      let t := { q with busyRemaining := q.busyRemaining - 1#8 }
      if t.busyRemaining = 0#8 then t.putBit busyBit false else t
  else
    let t := { q with untransmittedRemaining := q.untransmittedRemaining - 1#8 }
    if t.untransmittedRemaining = 0#8 then
      let u := t.putBit unprocessedDataBit false
      if u.busyRemaining = 0#8 then u else (u.putBit busyBit true).putBit bufferFullBit true
    else t

/-- `PreDummy(INIT)` (R180). -/
def preInit (cfg : Config) (q : Sequencer) : Sequencer :=
  let t := { q with
    dataPacketsRemaining := cfg.dataPacketCount, untransmittedRemaining := 0#8, busyRemaining := 0#8 }
  t.putBit bufferFullBit false

/-- `PreDummy(PRINT)` (R181). -/
def prePrint (cfg : Config) (q : Sequencer) : Sequencer := { q with busyRemaining := cfg.busyCount }

/-- `PreDummy(DATA)` (R182). -/
def preData (cfg : Config) (q : Sequencer) : Sequencer := { q with untransmittedRemaining := cfg.untransmittedCount }

/-- `PreDummy(BREAK)` (R183): clear every status bit, then the countdown step. -/
def preBreak (q : Sequencer) : Sequencer := inquiryStep { q with status := 0x00#8 }

/-- `PreDummy(INQUIRY)` (R184). -/
def preInquiry (q : Sequencer) : Sequencer := inquiryStep q

/-- `PostDummy(DATA)` for a packet whose `data_length` is `len` (R182). -/
def postData (len : Half) (q : Sequencer) : Sequencer :=
  let t :=
    if q.dataPacketsRemaining = 0#8 then q
    else
      let u := { q with dataPacketsRemaining := q.dataPacketsRemaining - 1#8 }
      if u.dataPacketsRemaining = 0#8 then u.putBit bufferFullBit true else u
  let v := t.putBit unprocessedDataBit true
  if len = 0#16 then v.putBit unprocessedDataBit false else v

/-- `PostDummy(INQUIRY)` (R184): "both countdowns" are untransmitted and busy (D16). -/
def postInquiry (q : Sequencer) : Sequencer :=
  if q.untransmittedRemaining = 0#8 ∧ q.busyRemaining = 0#8 then q.putBit bufferFullBit false else q

/-- `PreDummy(c)` (R186): dispatch on all 8 bits of the command byte; an unknown command does nothing (R187). -/
def preDummy (cfg : Config) (c : Byte) (q : Sequencer) : Sequencer :=
  match classify c with
  | .init => preInit cfg q
  | .print => prePrint cfg q
  | .data => preData cfg q
  | .break_ => preBreak q
  | .inquiry => preInquiry q
  | .unknown => q

/-- `PostDummy(c)` (R186); INIT, PRINT, BREAK and unknown commands have none. -/
def postDummy (c : Byte) (len : Half) (q : Sequencer) : Sequencer :=
  match classify c with
  | .init => q
  | .print => q
  | .data => postData len q
  | .break_ => q
  | .inquiry => postInquiry q
  | .unknown => q

end Sys2Proof.Machine
end

