-- ==== Sys2Proof/Machine/Packet.lean ====
section
/-! DEFINITION. The preamble synchroniser (spec/41_preamble_sync.md R150, R151), the packet state machine
(42_packet_fsm.md R160–R170) and the rising-edge path both edge disciplines share (40_bit_shifter.md R133). -/

namespace Sys2Proof.Machine

/-- The next packet state and the transfer that serves it: every transition ends with exactly one `Begin` (R160). -/
def armTransfer (p : PState) (m : Mode) (txw : Half) (s : State) : State :=
  (s.withPacket { s.packet with pstate := p }).withShifter (beginTransfer m txw s.shifter)

/-- `SyncMatch()` (R151). -/
def syncMatch (s : State) : State :=
  (armTransfer .header1 .wordBE 0x0000#16 (s.withSync { window := 0#16, synced := true })).withTimer s.config.timeoutMs

/-- `window[14:0] ++ d` (R150): the oldest bit falls off the top, the new one enters at the low end. -/
def shiftWindow (d : Bool) (w : Half) : Half := (w <<< 1) ||| (BitVec.ofBool d).setWidth 16

/-- `SyncStep(d)` (R150). -/
def syncStep (d : Bool) (s : State) : State :=
  let w := shiftWindow d s.sync.window
  if w = magic then syncMatch s else s.withSync { s.sync with window := w }

/-- `Header1Done()` (R161). -/
def header1Done (s : State) : State :=
  let w := rxWord s.shifter
  armTransfer .header2 .wordLE 0x0000#16
    (s.withPacket { s.packet with
      command := hiByte w, compression := loByte w, computedChecksum := 0x0000#16, dataIndex := 0x0000#16 })

/-- `min(len, 4)`, PRINT's clamp (R162). -/
def clampPrint (len : Half) : Half := if len ≤ 4#16 then len else 4#16

/-- `Header2Done()` (R162). -/
def header2Done (s : State) : State :=
  let len := rxWord s.shifter
  match classify s.packet.command with
  | .data =>
    let t := s.withPacket { s.packet with dataLength := len }
    if len = 0x0000#16 then armTransfer .checksum .wordLE 0x0000#16 t else armTransfer .payload .byte 0x0000#16 t
  | .print => armTransfer .payload .byte 0x0000#16 (s.withPacket { s.packet with dataLength := clampPrint len })
  | .init => armTransfer .checksum .wordLE 0x0000#16 (s.withPacket { s.packet with dataLength := len })
  | .break_ => armTransfer .checksum .wordLE 0x0000#16 (s.withPacket { s.packet with dataLength := len })
  | .inquiry => armTransfer .checksum .wordLE 0x0000#16 (s.withPacket { s.packet with dataLength := len })
  | .unknown => armTransfer .checksum .wordLE 0x0000#16 (s.withPacket { s.packet with dataLength := len })

/-- Where a payload byte goes (R165): DATA into the FIFO, PRINT into the print instruction, any other command nowhere. -/
def storePayload (b : Byte) (s : State) : State :=
  match classify s.packet.command with
  | .data => s.withFifo (ringEnqueue s.config.stageOnChecksum b s.fifo)
  | .print => s.withPrintInstruction (PrintInstruction.put s.packet.dataIndex b s.printInstruction)
  | .init => s
  | .break_ => s
  | .inquiry => s
  | .unknown => s

/-- `PayloadDone()` (R165): the 16-bit index wraps. -/
def payloadDone (s : State) : State :=
  let b := rxByte s.shifter
  let t := storePayload b s
  let i := s.packet.dataIndex + 1#16
  let u := t.withPacket { t.packet with
    computedChecksum := s.packet.computedChecksum + zext16 b, dataIndex := i }
  if i = s.packet.dataLength then armTransfer .checksum .wordLE 0x0000#16 u else armTransfer .payload .byte 0x0000#16 u

/-- `ChecksumDone()` (R168): the error bit first, then the pre-dummy action, then the status word is loaded for Dummy. -/
def checksumDone (s : State) : State :=
  let p := { s.packet with receivedChecksum := rxWord s.shifter, computedChecksum := foldHeader s.packet }
  let q := if s.config.useChecksum && !sumsAgree p then s.seq.putBit checksumErrorBit true else s.seq
  let q' := preDummy s.config p.command q
  armTransfer .dummy .wordBE (statusWordOf q') ((s.withPacket p).withSeq q')

/-- The staging gate of R170: this packet's sums decide, whatever `use_checksum` says (D14). -/
def settleStaged (cfg : Config) (p : Packet) (f : Fifo) : Fifo :=
  if cfg.stageOnChecksum then if sumsAgree p then ringCommit f else ringDiscardStaged f else f

/-- `DummyDone()` (R170): post-dummy action, staging gate, latches, `Begin(Idle)`, and for BREAK the cancellation reset
last (D17). -/
def dummyDone (s : State) : State :=
  let t := s.withSeq (postDummy s.packet.command s.packet.dataLength s.seq)
  let u := t.withFifo (settleStaged s.config s.packet s.fifo)
  let v := u.withLatches { raiseFlag s.packet.command s.packet.dataLength s.latches with packetCompleted := true }
  let w := (armTransfer .header1 .idle 0x0000#16 v).withSync { s.sync with synced := false }
  if classify s.packet.command = .break_ then cancelReset .break_ w else w

/-- `Transition()` (R160): the timer is refilled at every one. -/
def transition (s : State) : State :=
  let t := s.withTimer s.config.timeoutMs
  match s.packet.pstate with
  | .header1 => header1Done t
  | .header2 => header2Done t
  | .payload => payloadDone t
  | .checksum => checksumDone t
  | .dummy => dummyDone t

/-- `SampleRising(d)` (R133): the synchroniser before the match, else the shifter, and a transition when the transfer is
complete. -/
def sampleRising (d : Bool) (s : State) : State :=
  if s.sync.synced then
    let t := s.withShifter (sampleBit d s.shifter)
    if t.shifter.mask = 0x0000#16 then transition t else t
  else syncStep d s

end Sys2Proof.Machine
end

