-- ==== Sys2Proof/Machine/Edge.lean ====
section
/-! DEFINITION. The edge port: ON_EDGE, ON_RISING (spec/40_bit_shifter.md R139, R140), and the six command rows, whose
meaning is that the master sends one whole frame (30_encoding.md R100, R110, R122; 43_commands.md R180–R187; log 1). -/

namespace Sys2Proof.Machine

/-- ON_EDGE's effect under the dual-edge discipline (R139): a rising edge samples, a falling edge drives. -/
def edgeEffect (clockLevel sin : Bool) (s : State) : State := if clockLevel then sampleRising sin s else driveOut s

/-- An edge operation returns `sout` (R139, R140). -/
def returnSout (s : State) : State := s.withResult (.level s.shifter.sout)

/-- ON_EDGE (R139): refused under the rising-only discipline. -/
def execOnEdge (clockLevel sin : Bool) (s : State) : Host.Outcome State Fault Refusal :=
  whenReady s
    (if s.config.risingOnlyIsr then .refused .wrongDiscipline
     else if clockLevel then whenControlled s (.next (returnSout (edgeEffect true sin s)))
     else .next (returnSout (edgeEffect false sin s)))

/-- ON_RISING (R140): refused under the dual-edge discipline; samples, then drives from the post-shift mask (R135). -/
def execOnRising (sin : Bool) (s : State) : Host.Outcome State Fault Refusal :=
  whenReady s
    (if s.config.risingOnlyIsr then whenControlled s (.next (returnSout (driveOut (sampleRising sin s))))
     else .refused .wrongDiscipline)

/-! ## Sending bytes -/

/-- One bit slot with data level `d` (30_encoding.md R122): a falling and a rising edge under dual-edge, one rising edge
under rising-only. The master reads `sout` just before the rising edge (R143). -/
def sendBit (d : Bool) (s : State) : Bool × State :=
  if s.config.risingOnlyIsr then (s.shifter.sout, driveOut (sampleRising d s))
  else
    let t := driveOut s
    (t.shifter.sout, sampleRising d t)

/-- Bit slots in wire order, and the levels the master reads. -/
def sendBits : List Bool → State → List Bool × State
  | [], s => ([], s)
  | d :: ds, s =>
    let r := sendBit d s
    let rs := sendBits ds r.2
    (r.1 :: rs.1, rs.2)

/-- One byte, MSB first, and the byte the master reads. -/
def sendByte (b : Byte) (s : State) : Byte × State :=
  let r := sendBits (byteBits b) s
  (bitsByte r.1, r.2)

/-- Bytes in transmission order, and the bytes the master reads. -/
def sendBytes : List Byte → State → List Byte × State
  | [], s => ([], s)
  | b :: bs, s =>
    let r := sendByte b s
    let rs := sendBytes bs r.2
    (r.1 :: rs.1, rs.2)

/-- The master sends these bytes; the result is the stream it reads back. -/
def transmit (bytes : List Byte) (s : State) : Host.Outcome State Fault Refusal :=
  whenReady s
    (whenControlled s
      (let r := sendBytes bytes s
       .next (r.2.withResult (.back r.1))))

/-- INIT (R180). -/
def execCmdInit (f : Frame) (s : State) : Host.Outcome State Fault Refusal := transmit (frameBytes 0x01#8 f) s

/-- PRINT (R181). -/
def execCmdPrint (f : Frame) (s : State) : Host.Outcome State Fault Refusal := transmit (frameBytes 0x02#8 f) s

/-- DATA (R182). -/
def execCmdData (f : Frame) (s : State) : Host.Outcome State Fault Refusal := transmit (frameBytes 0x04#8 f) s

/-- BREAK (R183). -/
def execCmdBreak (f : Frame) (s : State) : Host.Outcome State Fault Refusal := transmit (frameBytes 0x08#8 f) s

/-- INQUIRY (R184). -/
def execCmdInquiry (f : Frame) (s : State) : Host.Outcome State Fault Refusal := transmit (frameBytes 0x0F#8 f) s

/-- UNKNOWN_COMMAND (R187). -/
def execCmdUnknown (c : Byte) (f : Frame) (s : State) : Host.Outcome State Fault Refusal :=
  transmit (frameBytes c f) s

/-- An input that is no instruction of the table. Wire bytes that are no frame are still bytes the master sends (R150,
R122; log 10); a reserved transaction code is refused (R121). -/
def execUndecoded (x : Input) (s : State) : Host.Outcome State Fault Refusal :=
  match x with
  | .wire bytes => transmit bytes s
  | .request r => .refused (.reservedCode r.code)

end Sys2Proof.Machine
end

