-- ==== Sys2Proof/Machine/Foreground.lean ====
section
/-! DEFINITION. The foreground port (spec/44_host_interface.md R200–R234). -/

namespace Sys2Proof.Machine

/-! ## Lifecycle -/

/-- INIT_ENGINE(cap) (R200, R276): admitted at any time, before the first one too. -/
def execInitEngine (cap : Nat) (s : State) : Host.Outcome State Fault Refusal :=
  if s.config.rawDump then .refused .rawDump
  else .next (hostReset ((s.withInitialised true).withFifo { s.fifo with cap := cap }))

/-- RESET (R201). -/
def execReset (s : State) : Host.Outcome State Fault Refusal := whenReady s (.next (hostReset s))

/-- `timer` less the elapsed time, saturating at 0 (R202, D19). -/
def countDown (elapsed timer : Millis) : Millis := if timer ≤ elapsed then 0#32 else timer - elapsed

/-- TICK's effect (R202): the pending BREAK report is read and cleared; an armed timer that reaches 0 runs
`CancelReset(TIMEOUT)`. -/
def tickEffect (elapsed : Millis) (s : State) : State :=
  let t := s.withResetReport false
  if s.timer = 0#32 then t.withResult (.bool s.resetReport)
  else
    let left := countDown elapsed s.timer
    if left = 0#32 then (cancelReset .timeout (t.withTimer left)).withResult (.bool true)
    else (t.withTimer left).withResult (.bool s.resetReport)

/-- TICK(elapsed_ms) (R202). -/
def execTick (elapsed : Millis) (s : State) : Host.Outcome State Fault Refusal :=
  whenReady s (.next (tickEffect elapsed s))

/-! ## Payload sink -/

/-- AVAILABLE (R203): staged bytes are not counted. -/
def execAvailable (s : State) : Host.Outcome State Fault Refusal :=
  whenReady s (.next (s.withResult (.count s.fifo.committed.length)))

/-- TAKE_ONE (R204). -/
def execTakeOne (s : State) : Host.Outcome State Fault Refusal := whenReady s (.next (ringTake s))

/-- PEEK(offset) (R205). -/
def execPeek (offset : Nat) (s : State) : Host.Outcome State Fault Refusal := whenReady s (.next (ringPeek offset s))

/-! ## Notification latches: read and clear in one step (D23) -/

/-- The consume template: return latch value `r`, leave the latches `l`. -/
def consume (r : Bool) (l : Latches) (s : State) : Host.Outcome State Fault Refusal :=
  whenReady s (.next ((s.withLatches l).withResult (.bool r)))

/-- CONSUME_INIT (R210). -/
def execConsumeInit (s : State) : Host.Outcome State Fault Refusal :=
  consume s.latches.initReceived { s.latches with initReceived := false } s

/-- CONSUME_DATA (R211). -/
def execConsumeData (s : State) : Host.Outcome State Fault Refusal :=
  consume s.latches.dataPacketReceived { s.latches with dataPacketReceived := false } s

/-- CONSUME_PRINT (R212). -/
def execConsumePrint (s : State) : Host.Outcome State Fault Refusal :=
  consume s.latches.printInstructionReceived { s.latches with printInstructionReceived := false } s

/-- CONSUME_BREAK (R213). -/
def execConsumeBreak (s : State) : Host.Outcome State Fault Refusal :=
  consume s.latches.breakReceived { s.latches with breakReceived := false } s

/-- CONSUME_INQUIRY (R214). -/
def execConsumeInquiry (s : State) : Host.Outcome State Fault Refusal :=
  consume s.latches.inquiryReceived { s.latches with inquiryReceived := false } s

/-- CONSUME_DATA_END (R215). -/
def execConsumeDataEnd (s : State) : Host.Outcome State Fault Refusal :=
  consume s.latches.dataEndReceived { s.latches with dataEndReceived := false } s

/-- CONSUME_PACKET_COMPLETED (R216). -/
def execConsumePacketCompleted (s : State) : Host.Outcome State Fault Refusal :=
  consume s.latches.packetCompleted { s.latches with packetCompleted := false } s

/-! ## Print-instruction accessors -/

/-- The gate of R229: the field while `print_instruction_received`, else NONE. -/
def gated {α : Type} (s : State) (v : α) : Option α := if s.latches.printInstructionReceived then some v else none

/-- PI_SHEETS (R230). -/
def execPiSheets (s : State) : Host.Outcome State Fault Refusal :=
  whenReady s (.next (s.withResult (.byteOrNone (gated s s.printInstruction.sheets))))

/-- PI_LF_BEFORE (R231). -/
def execPiLfBefore (s : State) : Host.Outcome State Fault Refusal :=
  whenReady s (.next (s.withResult (.nibbleOrNone (gated s s.printInstruction.lfBefore))))

/-- PI_LF_AFTER (R232). -/
def execPiLfAfter (s : State) : Host.Outcome State Fault Refusal :=
  whenReady s (.next (s.withResult (.nibbleOrNone (gated s s.printInstruction.lfAfter))))

/-- PI_PALETTE (R233). -/
def execPiPalette (s : State) : Host.Outcome State Fault Refusal :=
  whenReady s (.next (s.withResult (.byteOrNone (gated s s.printInstruction.palette))))

/-- PI_DENSITY (R234). -/
def execPiDensity (s : State) : Host.Outcome State Fault Refusal :=
  whenReady s (.next (s.withResult (.byteOrNone (gated s s.printInstruction.density))))

/-! ## Status override surface -/

/-- STATUS_GET_BIT(i) (R221). -/
def execStatusGetBit (i : BitVec 3) (s : State) : Host.Outcome State Fault Refusal :=
  whenReady s (.next (s.withResult (.level (getStatusBit s.seq.status i))))

/-- STATUS_SET_BIT(i, v) (R220): bit i of `status` only. -/
def execStatusSetBit (i : BitVec 3) (v : Bool) (s : State) : Host.Outcome State Fault Refusal :=
  whenReady s (.next ((s.withSeq (s.seq.putBit i v)).withResult .none))

/-- STATUS_WORD (R222). -/
def execStatusWord (s : State) : Host.Outcome State Fault Refusal :=
  whenReady s (.next (s.withResult (.word (statusWordOf s.seq))))

end Sys2Proof.Machine
end

