-- ==== Sys2Proof/Machine/Dispatch.lean ====
section
/-! DEFINITION. One arm per instruction. -/

namespace Sys2Proof.Machine

def exec (i : Instr) (s : State) : Host.Outcome State Fault Refusal :=
  match i with
  | .cmdInit f => Sys2Proof.Machine.execCmdInit f s
  | .cmdPrint f => Sys2Proof.Machine.execCmdPrint f s
  | .cmdData f => Sys2Proof.Machine.execCmdData f s
  | .cmdBreak f => Sys2Proof.Machine.execCmdBreak f s
  | .cmdInquiry f => Sys2Proof.Machine.execCmdInquiry f s
  | .cmdUnknown c f => Sys2Proof.Machine.execCmdUnknown c f s
  | .initEngine cap => Sys2Proof.Machine.execInitEngine cap s
  | .reset => Sys2Proof.Machine.execReset s
  | .tick e => Sys2Proof.Machine.execTick e s
  | .onEdge c d => Sys2Proof.Machine.execOnEdge c d s
  | .onRising d => Sys2Proof.Machine.execOnRising d s
  | .available => Sys2Proof.Machine.execAvailable s
  | .takeOne => Sys2Proof.Machine.execTakeOne s
  | .peek k => Sys2Proof.Machine.execPeek k s
  | .consumeInit => Sys2Proof.Machine.execConsumeInit s
  | .consumeData => Sys2Proof.Machine.execConsumeData s
  | .consumePrint => Sys2Proof.Machine.execConsumePrint s
  | .consumeBreak => Sys2Proof.Machine.execConsumeBreak s
  | .consumeInquiry => Sys2Proof.Machine.execConsumeInquiry s
  | .consumeDataEnd => Sys2Proof.Machine.execConsumeDataEnd s
  | .consumePacketCompleted => Sys2Proof.Machine.execConsumePacketCompleted s
  | .piSheets => Sys2Proof.Machine.execPiSheets s
  | .piLfBefore => Sys2Proof.Machine.execPiLfBefore s
  | .piLfAfter => Sys2Proof.Machine.execPiLfAfter s
  | .piPalette => Sys2Proof.Machine.execPiPalette s
  | .piDensity => Sys2Proof.Machine.execPiDensity s
  | .statusGetBit k => Sys2Proof.Machine.execStatusGetBit k s
  | .statusSetBit k v => Sys2Proof.Machine.execStatusSetBit k v s
  | .statusWord => Sys2Proof.Machine.execStatusWord s

end Sys2Proof.Machine
end

