-- ==== Sys2Proof/Machine/Step.lean ====
section
/-! DEFINITION. One step of the machine: the oldest pending input of the schedule is served as one atomic operation
(spec/20_memory.md R87, R88; log 2). -/

namespace Sys2Proof.Machine

/-- No step is taken from a state that breaks the control-point invariant (10_state.md R53, I17). With no input pending the
engine holds its state (00_scope.md R19, 60_exceptions.md R254). -/
def step (s : State) : Host.Outcome State Fault Refusal :=
  whenControlled s
    (match takeInput s with
     | none => .next s
     | some (x, t) =>
       match decode x with
       | .ok i => exec i t
       | .error _ => execUndecoded x t)

/-- The instruction of a table word, put in front of the pending inputs: the next step serves it (log 12). Every row of the
table has 8 bits; the other bits of the instruction are 0. -/
def State.withFetchWord (s : State) (_nbits w : Nat) : State := s.withInputs (tableInput w :: s.inputs)

end Sys2Proof.Machine
end

