-- ==== Sys2Proof/Safety.lean ====
section
/-! DEFINITION. The terms claims use: when an operation is served, where the engine stands, and the invariant of every
state a run from reset or power-on reaches (spec/10_state.md R35, R48, R53, R54; 40_bit_shifter.md R141;
41_preamble_sync.md R156; 30_encoding.md R100). -/

namespace Sys2Proof.Machine

/-- Nothing of R16 that concerns every operation refuses: no raw-dump configuration, and INIT_ENGINE has run. -/
abbrev Ready (s : State) : Prop := s.config.rawDump = false ∧ s.initialised = true

/-- The dual-edge discipline is built (R136). -/
abbrev DualEdge (s : State) : Prop := s.config.risingOnlyIsr = false

/-- The rising-only discipline is built (R136). -/
abbrev RisingOnly (s : State) : Prop := s.config.risingOnlyIsr = true

/-- Awaiting the preamble (R53 (a)) with an empty window (R156) and the line low (R38). -/
abbrev AwaitingPreamble (s : State) : Prop :=
  s.sync = { window := 0#16, synced := false } ∧ s.shifter.mode = .idle ∧ s.shifter.mask = 0#16 ∧
    s.shifter.sout = false ∧ s.packet.pstate = .header1

/-- The next rising edge completes the transfer of packet state `p` (R133, R160). -/
abbrev LastBitOf (p : PState) (s : State) : Prop :=
  s.sync.synced = true ∧ s.packet.pstate = p ∧ s.shifter.mask = 0x0001#16 ∧ pairOk p s.shifter.mode = true

/-- The register of a completed transfer: `rx` with the last bit sampled in (R133). -/
def sampledRx (d : Bool) (s : State) : Half := if d then s.shifter.rx ||| 0x0001#16 else s.shifter.rx

/-- The reserved transaction codes, R121: 0x0F, 0x15–0x1F and 0x31–0xFF. -/
abbrev ReservedCode (c : Byte) : Prop :=
  c.toNat = 0x0F ∨ (0x15 ≤ c.toNat ∧ c.toNat ≤ 0x1F) ∨ 0x31 ≤ c.toNat

/-- Requests with code `c` are the operation `mk`, whatever the lines it does not read carry (30_encoding.md R120). -/
abbrev HasCode (c : Byte) (mk : Request → Instr) : Prop := ∀ r : Request, r.code = c → decode (.request r) = .ok (mk r)

/-- An operation of the discipline that is not built (R136). -/
abbrev WrongDiscipline (i : Instr) (s : State) : Prop :=
  ((∃ c d, i = .onEdge c d) ∧ RisingOnly s) ∨ ((∃ d, i = .onRising d) ∧ DualEdge s)

/-- The six command rows. -/
def isCommandRow : Instr → Bool
  | .cmdInit _ => true
  | .cmdPrint _ => true
  | .cmdData _ => true
  | .cmdBreak _ => true
  | .cmdInquiry _ => true
  | .cmdUnknown _ _ => true
  | _ => false

/-- The operations of the edge port (R8): ON_EDGE and ON_RISING. -/
def isEdgeOp : Instr → Bool
  | .onEdge _ _ => true
  | .onRising _ => true
  | _ => false

/-- INIT_ENGINE. -/
def isInitEngine : Instr → Bool
  | .initEngine _ => true
  | _ => false

/-- The two operations that end in HostReset (R271). -/
def isHostReset : Instr → Bool
  | .initEngine _ => true
  | .reset => true
  | _ => false

/-- The seven consume operations (R210–R216). -/
def isConsume : Instr → Bool
  | .consumeInit => true
  | .consumeData => true
  | .consumePrint => true
  | .consumeBreak => true
  | .consumeInquiry => true
  | .consumeDataEnd => true
  | .consumePacketCompleted => true
  | _ => false

/-- Every latch of `a` that is true is true in `b`. -/
abbrev Latches.le (a b : Latches) : Prop :=
  (a.initReceived = true → b.initReceived = true) ∧ (a.dataPacketReceived = true → b.dataPacketReceived = true) ∧
  (a.dataEndReceived = true → b.dataEndReceived = true) ∧
  (a.printInstructionReceived = true → b.printInstructionReceived = true) ∧
  (a.breakReceived = true → b.breakReceived = true) ∧ (a.inquiryReceived = true → b.inquiryReceived = true) ∧
  (a.packetCompleted = true → b.packetCompleted = true)

/-! ## The invariant -/

/-- The mask values a transfer of each mode runs through (R35). -/
def legalMasks : Mode → List Half
  | .idle => [0x0000#16]
  | .byte => [0x0080#16, 0x0040#16, 0x0020#16, 0x0010#16, 0x0008#16, 0x0004#16, 0x0002#16, 0x0001#16]
  | .wordBE => [0x8000#16, 0x4000#16, 0x2000#16, 0x1000#16, 0x0800#16, 0x0400#16, 0x0200#16, 0x0100#16,
      0x0080#16, 0x0040#16, 0x0020#16, 0x0010#16, 0x0008#16, 0x0004#16, 0x0002#16, 0x0001#16]
  | .wordLE => [0x8000#16, 0x4000#16, 0x2000#16, 0x1000#16, 0x0800#16, 0x0400#16, 0x0200#16, 0x0100#16,
      0x0080#16, 0x0040#16, 0x0020#16, 0x0010#16, 0x0008#16, 0x0004#16, 0x0002#16, 0x0001#16]

/-- R35: the mask is a legal value of its mode. -/
abbrev MaskOk (s : State) : Prop := s.shifter.mask ∈ legalMasks s.shifter.mode

/-- R54: occupancy never exceeds the capacity. -/
abbrev OccupancyOk (s : State) : Prop := s.fifo.committed.length + s.fifo.staged.length ≤ s.fifo.cap

/-- R54: staged bytes only in Payload, Checksum and Dummy, and only when staging is on. -/
abbrev StagedOk (s : State) : Prop :=
  (s.packet.pstate = .header1 ∨ s.packet.pstate = .header2 ∨ s.config.stageOnChecksum = false) → s.fifo.staged = []

/-- R54: no counter exceeds what a command loads into it. -/
abbrev CountersOk (s : State) : Prop :=
  s.seq.dataPacketsRemaining ≤ s.config.dataPacketCount ∧ s.seq.untransmittedRemaining ≤ s.config.untransmittedCount ∧
    s.seq.busyRemaining ≤ s.config.busyCount

/-- R54: the payload index stays below the length, from 0 at Header2 (R161). -/
abbrev IndexOk (s : State) : Prop :=
  (s.packet.pstate = .header2 → s.packet.dataIndex = 0#16) ∧
  (s.packet.pstate = .payload → s.packet.dataLength ≠ 0#16 → s.packet.dataIndex < s.packet.dataLength)

/-- R162, R165: only a non-empty DATA and a PRINT are in Payload, and PRINT's length is clamped to 4. -/
abbrev PayloadOk (s : State) : Prop :=
  (s.packet.pstate = .payload →
    (classify s.packet.command = .data ∧ s.packet.dataLength ≠ 0#16) ∨ classify s.packet.command = .print) ∧
  (s.packet.pstate = .payload ∨ s.packet.pstate = .checksum ∨ s.packet.pstate = .dummy →
    classify s.packet.command = .print → s.packet.dataLength ≤ 4#16)

/-- R100, R141: outside Dummy the slave has nothing to send and holds the line low; in Dummy the high byte to send is the
device ID (R46). -/
abbrev LineOk (s : State) : Prop :=
  (s.packet.pstate ≠ .dummy → s.shifter.tx = 0#16 ∧ s.shifter.sout = false) ∧
  (s.packet.pstate = .dummy → hiByte s.shifter.tx = deviceId)

/-- R151, R156: the window is empty while synchronised and never holds a whole sync word. -/
abbrev WindowOk (s : State) : Prop := (s.sync.synced = true → s.sync.window = 0#16) ∧ s.sync.window ≠ magic

/-- The invariant of reachable states. -/
abbrev Inv (s : State) : Prop :=
  controlPoint s = true ∧ MaskOk s ∧ OccupancyOk s ∧ StagedOk s ∧ CountersOk s ∧ IndexOk s ∧ PayloadOk s ∧ LineOk s ∧
    WindowOk s

/-! ## Frames from the awaiting-preamble state -/

/-- The engine takes a frame from its first bit: ready, awaiting the preamble, nothing staged (R54). -/
abbrev ReadyForFrame (s : State) : Prop := Ready s ∧ AwaitingPreamble s ∧ s.fifo.staged = []

/-- The four bytes after a frame's payload, in wire order (30_encoding.md R100). -/
def frameTail (f : Frame) : List Byte :=
  [f.checksum.extractLsb' 0 8, f.checksum.extractLsb' 8 8, f.dummy.extractLsb' 8 8, f.dummy.extractLsb' 0 8]

/-- The LENGTH field of a frame (R100). -/
def frameLength (f : Frame) : Half := BitVec.ofNat 16 f.payload.length

/-- The sum of a list of bytes modulo 65536 (42_packet_fsm.md R171). -/
def byteSum (bytes : List Byte) : Half := (bytes.map (BitVec.setWidth 16)).sum

/-- The sum of the four header bytes: command, compression, length low and high (R171). -/
def headerSum (c comp : Byte) (len : Half) : Half :=
  c.setWidth 16 + comp.setWidth 16 + (len.extractLsb' 0 8).setWidth 16 + (len.extractLsb' 8 8).setWidth 16

/-- The status byte once the packet's sums have been compared (R168): bit 0 is set by a mismatch when `use_checksum`, and
never cleared (D13). -/
def comparedStatus (s : State) (computed received : Half) : Byte :=
  if s.config.useChecksum = true ∧ computed ≠ received then s.seq.status ||| 0x01#8 else s.seq.status

/-- Back where a frame without payload began (R170): shifter idle, scanning, Header1, timer refilled, with the packet's
fields, the sequencer `q` and the latches `l` given. -/
def frameEnd (c comp : Byte) (len idx received computed : Half) (q : Sequencer) (l : Latches) (s : State) : State :=
  { s with
    shifter := { mode := .idle, mask := 0#16, rx := 0#16, tx := 0#16, sout := false },
    packet := { pstate := .header1, command := c, compression := comp, dataLength := len, dataIndex := idx,
                receivedChecksum := received, computedChecksum := computed },
    seq := q, latches := l, timer := s.config.timeoutMs }

/-- What the master reads over a frame whose Dummy carries status `st` after `n` bytes of zero (R100, R104), and over the
bytes it sends after that from state `t`, and where those leave the engine. -/
def thenSend (n : Nat) (st : Byte) (surplus : List Byte) (t : State) : State :=
  { (sendBytes surplus t).2 with
    result := .back (List.replicate n 0x00#8 ++ [0x81#8, st] ++ (sendBytes surplus t).1) }

/-! ## Runs -/

/-- The edge operations of one bit slot with data level `d` (30_encoding.md R122), the ignored level low. -/
def slotInputs (risingOnly d : Bool) : List Input :=
  if risingOnly then [encode (.onRising d)] else [encode (.onEdge false false), encode (.onEdge true d)]

/-- The edge operations of bytes sent in order, each MSB first (R122). -/
def byteInputs (risingOnly : Bool) (bytes : List Byte) : List Input :=
  (bytes.flatMap byteBits).flatMap (slotInputs risingOnly)

/-- The 16 bits of the sync word in wire order (30_encoding.md R101). -/
def magicBits : List Bool :=
  [true, false, false, false, true, false, false, false, false, false, true, true, false, false, true, true]

end Sys2Proof.Machine
end

