-- ==== Sys2Proof/Certificates/Slice0/Obligations.lean ====
section
/-! DEFINITION. The statements for the provers. Each docstring names the rules of spec/ it formalises. -/

open Sys2Proof
open Sys2Proof.Machine

/-! ## Encoding -/

/-- Decoding the encoded form of a well-formed instruction gives it back, for every row of the table and every operand
(30_encoding.md R100, R110, R120). -/
def Obligations.DecodeOfEncodeIsIdentity : Prop :=
  ∀ i : Instr, i.wf = true → decode (encode i) = .ok i

/-- Words written out from R100 and R120 decode to the instructions they stand for. -/
def Obligations.WrittenWordsDecode : Prop :=
  decode (.wire [0x88#8, 0x33#8, 0x01#8, 0x00#8, 0x00#8, 0x00#8, 0x01#8, 0x00#8, 0x00#8, 0x00#8]) =
    .ok (.cmdInit { compression := 0#8, payload := [], checksum := 0x0001#16, dummy := 0#16 }) ∧
  decode (.wire [0x88#8, 0x33#8, 0x02#8, 0x00#8, 0x04#8, 0x00#8, 0x01#8, 0x03#8, 0xE4#8, 0x40#8, 0x2E#8, 0x01#8,
      0x00#8, 0x00#8]) =
    .ok (.cmdPrint { compression := 0#8, payload := [0x01#8, 0x03#8, 0xE4#8, 0x40#8], checksum := 0x012E#16,
                     dummy := 0#16 }) ∧
  decode (.request { code := 0b00101101#8, natural := 0, millis := 0#32, clockLevel := false, bit := true }) =
    .ok (.statusSetBit 5#3 true) ∧
  decode (.request { code := 0b00000010#8, natural := 0, millis := 5000#32, clockLevel := false, bit := false }) =
    .ok (.tick 5000#32)

/-- R121: the reserved codes name no operation, every other code names one, and a request with a reserved code is refused.
That it is refused as reserved where R16 lists another refusal too (raw_dump, no INIT_ENGINE) is the model's order, log 11. -/
def Obligations.ReservedCodesAreRefused : Prop :=
  ∀ r : Request, (ReservedCode r.code ↔ ¬ ∃ i, decode (.request r) = .ok i) ∧
    ∀ (s : State) (rest : List Input), controlPoint s = true → s.inputs = .request r :: rest → ReservedCode r.code →
      step s = .refused (.reservedCode r.code)

/-! ## The step -/

/-- An input that decodes to an instruction is served as that instruction, on the state without the input. -/
def Obligations.StepServesTheDecodedInput : Prop :=
  ∀ (s : State) (x : Input) (rest : List Input) (i : Instr), controlPoint s = true → s.inputs = x :: rest →
    decode x = .ok i → step s = exec i { s with inputs := rest }

/-- With no input pending the engine holds its state (R19, R254). The queue of inputs is the model's (log 2). -/
def Obligations.StepWithoutInputHoldsTheState : Prop :=
  ∀ s : State, controlPoint s = true → s.inputs = [] → step s = .next s

/-- Wire bytes that are no frame are sent all the same (log 10), each bit as R122 says. -/
def Obligations.StepSendsWireBytesThatAreNoFrame : Prop :=
  ∀ (s : State) (bytes : List Byte) (rest : List Input) (e : DecodeError), controlPoint s = true → Ready s →
    s.inputs = .wire bytes :: rest → decode (.wire bytes) = .error e →
    step s = .next { (sendBytes bytes { s with inputs := rest }).2 with
      result := .back (sendBytes bytes { s with inputs := rest }).1 }

/-- R53: from a state that breaks the control-point invariant no step is taken (I17, log 9): `step` stops, and so do a rising
edge and a frame. -/
def Obligations.NoStepFromABrokenControlPoint : Prop :=
  ∀ s : State, controlPoint s = false →
    step s = .fault .brokenControlPoint ∧
    (Ready s → DualEdge s → ∀ d, exec (.onEdge true d) s = .fault .brokenControlPoint) ∧
    (Ready s → RisingOnly s → ∀ d, exec (.onRising d) s = .fault .brokenControlPoint) ∧
    (Ready s → ∀ i, isCommandRow i = true → exec i s = .fault .brokenControlPoint)

/-! ## The invariant and what holds of every operation -/

/-- Every step keeps the invariant of R35, R53, R54 and R156, from every state that meets it. -/
def Obligations.StepKeepsTheInvariant : Prop :=
  ∀ s t : State, Inv s → step s = .next t → Inv t

/-- The invariant holds after reset, after any INIT_ENGINE, and before any. R53 and R54 speak of the states reachable from the
post-init state; the fields of the power-on state, and the capacity and configuration of `State.reset`, are the model's choice
(logs 3, 4). -/
def Obligations.ResetAndPowerOnMeetTheInvariant : Prop :=
  Inv State.reset ∧ (∀ (cfg : Config) (cap : Nat), Inv (State.postInit cfg cap)) ∧ ∀ cfg : Config, Inv (State.powerOn cfg)

/-- R240: from a state of the invariant no operation, and no step, ends in a fault. -/
def Obligations.NoOperationFaults : Prop :=
  ∀ s : State, controlPoint s = true → (∀ (i : Instr) (f : Fault), exec i s ≠ .fault f) ∧ ∀ f : Fault, step s ≠ .fault f

/-- R16: exactly these cases are refused: an operation before the first INIT_ENGINE, a raw-dump configuration, the edge
operation of the other discipline; and, of requests, a reserved code. -/
def Obligations.RefusedExactlyWhenListed : Prop :=
  (∀ (i : Instr) (s : State), (∃ r, exec i s = .refused r) ↔
    (s.config.rawDump = true ∨ (s.initialised = false ∧ isInitEngine i = false) ∨ WrongDiscipline i s)) ∧
  ∀ (s : State) (q : Request) (rest : List Input), controlPoint s = true → s.inputs = .request q :: rest →
    ((∃ r, step s = .refused r) ↔
      (ReservedCode q.code ∨ ∃ i, decode (.request q) = .ok i ∧ ∃ r, exec i { s with inputs := rest } = .refused r))

/-- R15: whatever is not refused completes. -/
def Obligations.WhatIsNotRefusedCompletes : Prop :=
  ∀ (i : Instr) (s : State), controlPoint s = true → s.config.rawDump = false →
    (s.initialised = true ∨ isInitEngine i = true) → ¬ WrongDiscipline i s → ∃ t, exec i s = .next t

/-- R9: the configuration is fixed for the life of the instance; and an operation takes nothing from the schedule. That both are
fields of State is the model's choice, logs 3 and 2. -/
def Obligations.NoOperationWritesTheConfiguration : Prop :=
  (∀ (i : Instr) (s t : State), exec i s = .next t → t.config = s.config ∧ t.inputs = s.inputs) ∧
  ∀ s t : State, step s = .next t → t.config = s.config

/-- R32, R33: only INIT_ENGINE writes CAP and `initialised`. -/
def Obligations.OnlyInitEngineWritesCapAndInitialised : Prop :=
  ∀ (i : Instr) (s t : State), isInitEngine i = false → exec i s = .next t →
    t.fifo.cap = s.fifo.cap ∧ t.initialised = s.initialised

/-- R45, D37: bits 4 to 7 of the status byte are set by STATUS_SET_BIT and by nothing else. -/
def Obligations.EngineNeverSetsTheForegroundBits : Prop :=
  ∀ (i : Instr) (s t : State) (k : BitVec 3), 4#3 ≤ k → exec i s = .next t → getStatusBit t.seq.status k = true →
    getStatusBit s.seq.status k = true ∨ i = .statusSetBit k true

/-- R50: the latches are set by packet completions only, so by no foreground operation, and cleared by the CONSUME_*
operations and HostReset only. -/
def Obligations.LatchesClearedOnlyByConsumeAndHostReset : Prop :=
  ∀ (i : Instr) (s t : State), exec i s = .next t →
    ((isConsume i = false ∧ isHostReset i = false → s.latches.le t.latches) ∧
     (isCommandRow i = false ∧ isEdgeOp i = false → t.latches.le s.latches))

/-- R80: an edge operation changes the print instruction only when it completes a payload byte of a PRINT at an index
below 4, and a foreground operation only by HostReset. -/
def Obligations.PrintInstructionWrittenOnlyByPrintPayload : Prop :=
  ∀ (i : Instr) (s t : State), isCommandRow i = false → exec i s = .next t → t.printInstruction ≠ s.printInstruction →
    isHostReset i = true ∨
    (isEdgeOp i = true ∧ s.sync.synced = true ∧ s.packet.pstate = .payload ∧ s.packet.command = 0x02#8 ∧
      s.packet.dataIndex < 4#16 ∧ s.shifter.mask >>> 1 = 0#16)

/-- R72, R283: an edge operation leaves the committed bytes as they were, adds newer ones behind them, or, at the end of a
BREAK packet, empties the FIFO. -/
def Obligations.EdgeOperationsOnlyAppendToTheFifo : Prop :=
  ∀ (i : Instr) (s t : State), isEdgeOp i = true → exec i s = .next t →
    (∃ more, t.fifo.committed = s.fifo.committed ++ more) ∨
    (s.packet.pstate = .dummy ∧ s.packet.command = 0x08#8 ∧ t.fifo.committed = [] ∧ t.fifo.staged = [])

/-- The frame of an edge operation: the configuration, the schedule, CAP and the draw counter always stay; the sequencer
stays unless a Checksum or Dummy transfer ends, the latches and `reset_report` unless a Dummy ends, the FIFO unless a
Payload or Dummy ends, the timer unless a transfer ends or the preamble matches (R133, R150, R160–R170). -/
def Obligations.EdgeOperationFrame : Prop :=
  ∀ (i : Instr) (s t : State), isEdgeOp i = true → exec i s = .next t →
    t.initialised = s.initialised ∧ t.config = s.config ∧ t.inputs = s.inputs ∧ t.draws = s.draws ∧
    t.fifo.cap = s.fifo.cap ∧
    (¬ (s.sync.synced = true ∧ s.shifter.mask >>> 1 = 0#16 ∧ (s.packet.pstate = .checksum ∨ s.packet.pstate = .dummy)) →
      t.seq = s.seq) ∧
    (¬ (s.sync.synced = true ∧ s.shifter.mask >>> 1 = 0#16 ∧ s.packet.pstate = .dummy) →
      t.latches = s.latches ∧ t.resetReport = s.resetReport) ∧
    (¬ (s.sync.synced = true ∧ s.shifter.mask >>> 1 = 0#16 ∧ (s.packet.pstate = .payload ∨ s.packet.pstate = .dummy)) →
      t.fifo = s.fifo) ∧
    (s.sync.synced = true → s.shifter.mask >>> 1 ≠ 0#16 → t.timer = s.timer ∧ t.packet = s.packet ∧ t.sync = s.sync)

/-- R252: only the edge port advances the shifter and the packet state machine: a foreground operation other than TICK,
RESET and INIT_ENGINE leaves them, the synchroniser, the counters, the timer, the print instruction and `reset_report` as
they were. -/
def Obligations.ForegroundOperationFrame : Prop :=
  ∀ (i : Instr) (s t : State), isCommandRow i = false → isEdgeOp i = false → isHostReset i = false →
    (∀ e, i ≠ .tick e) → exec i s = .next t →
    t.initialised = s.initialised ∧ t.shifter = s.shifter ∧ t.sync = s.sync ∧ t.packet = s.packet ∧ t.timer = s.timer ∧
    t.printInstruction = s.printInstruction ∧ t.resetReport = s.resetReport ∧ t.config = s.config ∧
    t.inputs = s.inputs ∧ t.fifo.cap = s.fifo.cap ∧ t.fifo.staged = s.fifo.staged ∧
    t.seq.dataPacketsRemaining = s.seq.dataPacketsRemaining ∧
    t.seq.untransmittedRemaining = s.seq.untransmittedRemaining ∧ t.seq.busyRemaining = s.seq.busyRemaining

/-! ## Lifecycle -/

/-- R200, R276: INIT_ENGINE gives `PostInit(cap)` from every state, also before the first one. The model's own schedule and
draw counter stay (logs 2, 6). -/
def Obligations.InitEngineGivesPostInit : Prop :=
  HasCode 0x00#8 (fun r => .initEngine r.natural) ∧
  ∀ (cap : Nat) (s : State), s.config.rawDump = false →
    exec (.initEngine cap) s = .next { State.postInit s.config cap with inputs := s.inputs, draws := s.draws }

/-- R270: the fields of `PostInit(cap)`. -/
def Obligations.PostInitFieldsAreZero : Prop :=
  ∀ (cfg : Config) (cap : Nat),
    (State.postInit cfg cap).initialised = true ∧
    (State.postInit cfg cap).fifo = { cap := cap, committed := [], staged := [] } ∧
    (State.postInit cfg cap).shifter = { mode := .idle, mask := 0x0000#16, rx := 0x0000#16, tx := 0x0000#16, sout := false } ∧
    (State.postInit cfg cap).sync = { window := 0x0000#16, synced := false } ∧
    (State.postInit cfg cap).packet =
      { pstate := .header1, command := 0x00#8, compression := 0x00#8, dataLength := 0x0000#16, dataIndex := 0x0000#16,
        receivedChecksum := 0x0000#16, computedChecksum := 0x0000#16 } ∧
    (State.postInit cfg cap).seq =
      { status := 0x00#8, dataPacketsRemaining := 0#8, untransmittedRemaining := 0#8, busyRemaining := 0#8 } ∧
    (State.postInit cfg cap).timer = 0#32 ∧
    (State.postInit cfg cap).printInstruction = { byte0 := 0x00#8, byte1 := 0x00#8, byte2 := 0x00#8, byte3 := 0x00#8 } ∧
    (State.postInit cfg cap).latches =
      { initReceived := false, dataPacketReceived := false, dataEndReceived := false, printInstructionReceived := false,
        breakReceived := false, inquiryReceived := false, packetCompleted := false } ∧
    (State.postInit cfg cap).resetReport = false ∧
    controlPoint (State.postInit cfg cap) = true ∧ (State.postInit cfg cap).sync.synced = false

/-- R201, R271: RESET sets every field to its post-init value except `initialised` and CAP. -/
def Obligations.ResetGivesPostInitAndKeepsCap : Prop :=
  HasCode 0x01#8 (fun _ => .reset) ∧
  ∀ s : State, Ready s →
    exec .reset s = .next { State.postInit s.config s.fifo.cap with inputs := s.inputs, draws := s.draws }

/-- R273: the resets are idempotent: RESET twice, CancelReset twice, and a second BREAK packet after a first, which leaves
the same state but for what the master read. The BREAK packets here are well-formed, `PKT(0x08, comp, [])` of R123; a wrong
checksum or L above 0 is left to `BreakFrameCancelsEverything`. The row as one whole frame is the model's choice, log 1. -/
def Obligations.ResetsAreIdempotent : Prop :=
  (∀ s t : State, exec .reset s = .next t → exec .reset t = .next t) ∧
  (∀ (r : CancelReason) (s : State), cancelReset r (cancelReset r s) = cancelReset r s) ∧
  (∀ (comp : Byte) (s t : State), ReadyForFrame s → exec (.cmdBreak (pkt 0x08#8 comp [])) s = .next t →
    ∃ u, exec (.cmdBreak (pkt 0x08#8 comp [])) t = .next u ∧ u = { t with result := u.result })

/-- R202: TICK reports and clears `reset_report`, counts an armed timer down, saturating at 0, and runs CancelReset(TIMEOUT)
when it reaches 0; a disarmed timer stays disarmed. -/
def Obligations.TickCountsDownAndCancelsAtZero : Prop :=
  HasCode 0x02#8 (fun r => .tick r.millis) ∧
  ∀ (e : Millis) (s : State), Ready s →
    (s.timer = 0#32 → exec (.tick e) s = .next { s with resetReport := false, result := .bool s.resetReport }) ∧
    (e < s.timer →
      exec (.tick e) s = .next { s with resetReport := false, timer := s.timer - e, result := .bool s.resetReport }) ∧
    (s.timer ≠ 0#32 → s.timer ≤ e →
      exec (.tick e) s = .next { s with
        shifter := .zero, sync := .zero, packet := .zero, seq := .zero, timer := 0#32,
        fifo := { s.fifo with committed := [], staged := [] }, resetReport := false, result := .bool true })

/-- R251, R160, R151: nothing re-arms the timer except a transition or a preamble match. No foreground operation raises it; a
falling edge leaves it; a rising edge loads TIMEOUT_MS when it ends a transfer or completes the sync word and leaves it
otherwise, and the one that ends a BREAK's Dummy disarms it (R272). A frame is the run of its edges (log 1), so it leaves
the timer, loads TIMEOUT_MS or disarms it. -/
def Obligations.TimerIsRearmedOnlyByTheEdgePort : Prop :=
  ∀ (i : Instr) (s t : State), exec i s = .next t →
    (isCommandRow i = false → isEdgeOp i = false → t.timer ≤ s.timer) ∧
    (∀ d, i = .onEdge false d → t.timer = s.timer) ∧
    (∀ d, i = .onEdge true d ∨ i = .onRising d →
      (s.sync.synced = true → s.shifter.mask >>> 1 ≠ 0#16 → t.timer = s.timer) ∧
      (s.sync.synced = true → s.shifter.mask >>> 1 = 0#16 →
        t.timer = if s.packet.pstate = .dummy ∧ s.packet.command = 0x08#8 then 0#32 else s.config.timeoutMs) ∧
      (s.sync.synced = false →
        t.timer = if (s.sync.window <<< 1) ||| (BitVec.ofBool d).setWidth 16 = 0x8833#16 then s.config.timeoutMs
          else s.timer)) ∧
    (isCommandRow i = true → t.timer = s.timer ∨ t.timer = s.config.timeoutMs ∨ t.timer = 0#32)

/-! ## Payload sink -/

/-- R203: AVAILABLE counts the committed bytes and writes nothing. -/
def Obligations.AvailableCountsCommitted : Prop :=
  HasCode 0x05#8 (fun _ => .available) ∧
  ∀ s : State, Ready s → exec .available s = .next { s with result := .count s.fifo.committed.length }

/-- R78, R204: TAKE_ONE gives the oldest committed byte and clears UNPROCESSED_DATA, bit 3, when none is left; on an empty
FIFO it gives some byte and changes nothing (the draw counter is the model's, log 6). -/
def Obligations.TakeOneGivesTheOldestByte : Prop :=
  HasCode 0x06#8 (fun _ => .takeOne) ∧
  ∀ s : State, Ready s →
    (∀ b c rest, s.fifo.committed = b :: c :: rest →
      exec .takeOne s = .next { s with fifo := { s.fifo with committed := c :: rest }, result := .byte b }) ∧
    (∀ b, s.fifo.committed = [b] →
      exec .takeOne s = .next { s with
        fifo := { s.fifo with committed := [] }, seq := { s.seq with status := s.seq.status &&& 0xF7#8 },
        result := .byte b }) ∧
    (s.fifo.committed = [] →
      ∃ b, exec .takeOne s = .next { s with result := .byte b, draws := s.draws + 1 })

/-- R79, R205: PEEK gives the byte at the offset from the oldest and changes nothing; at or past the count, some byte. -/
def Obligations.PeekReadsAtTheOffset : Prop :=
  HasCode 0x07#8 (fun r => .peek r.natural) ∧
  ∀ (k : Nat) (s : State), Ready s →
    (∀ h : k < s.fifo.committed.length, exec (.peek k) s = .next { s with result := .byte s.fifo.committed[k] }) ∧
    (s.fifo.committed.length ≤ k → ∃ b, exec (.peek k) s = .next { s with result := .byte b, draws := s.draws + 1 })

/-! ## Latches, print accessors, status surface -/

/-- R210–R216: each CONSUME_* returns its latch and clears it, and changes nothing else. -/
def Obligations.ConsumeReturnsAndClearsItsLatch : Prop :=
  (HasCode 0x08#8 (fun _ => .consumeInit) ∧ HasCode 0x09#8 (fun _ => .consumeData) ∧
    HasCode 0x0A#8 (fun _ => .consumePrint) ∧ HasCode 0x0B#8 (fun _ => .consumeBreak) ∧
    HasCode 0x0C#8 (fun _ => .consumeInquiry) ∧ HasCode 0x0D#8 (fun _ => .consumeDataEnd) ∧
    HasCode 0x0E#8 (fun _ => .consumePacketCompleted)) ∧
  ∀ s : State, Ready s →
    exec .consumeInit s = .next { s with
      latches := { s.latches with initReceived := false }, result := .bool s.latches.initReceived } ∧
    exec .consumeData s = .next { s with
      latches := { s.latches with dataPacketReceived := false }, result := .bool s.latches.dataPacketReceived } ∧
    exec .consumePrint s = .next { s with
      latches := { s.latches with printInstructionReceived := false },
      result := .bool s.latches.printInstructionReceived } ∧
    exec .consumeBreak s = .next { s with
      latches := { s.latches with breakReceived := false }, result := .bool s.latches.breakReceived } ∧
    exec .consumeInquiry s = .next { s with
      latches := { s.latches with inquiryReceived := false }, result := .bool s.latches.inquiryReceived } ∧
    exec .consumeDataEnd s = .next { s with
      latches := { s.latches with dataEndReceived := false }, result := .bool s.latches.dataEndReceived } ∧
    exec .consumePacketCompleted s = .next { s with
      latches := { s.latches with packetCompleted := false }, result := .bool s.latches.packetCompleted }

/-- R229–R234: while `print_instruction_received`, the accessors return the fields of R115, and otherwise NONE; they change
nothing. -/
def Obligations.PrintAccessorsReturnTheirFieldsOrNone : Prop :=
  (HasCode 0x10#8 (fun _ => .piSheets) ∧ HasCode 0x11#8 (fun _ => .piLfBefore) ∧ HasCode 0x12#8 (fun _ => .piLfAfter) ∧
    HasCode 0x13#8 (fun _ => .piPalette) ∧ HasCode 0x14#8 (fun _ => .piDensity)) ∧
  ∀ s : State, Ready s →
    (s.latches.printInstructionReceived = true →
      exec .piSheets s = .next { s with result := .byteOrNone (some s.printInstruction.byte0) } ∧
      exec .piLfBefore s = .next { s with result := .nibbleOrNone (some (s.printInstruction.byte1.extractLsb' 4 4)) } ∧
      exec .piLfAfter s = .next { s with result := .nibbleOrNone (some (s.printInstruction.byte1.extractLsb' 0 4)) } ∧
      exec .piPalette s = .next { s with result := .byteOrNone (some s.printInstruction.byte2) } ∧
      exec .piDensity s = .next { s with result := .byteOrNone (some s.printInstruction.byte3) }) ∧
    (s.latches.printInstructionReceived = false →
      exec .piSheets s = .next { s with result := .byteOrNone none } ∧
      exec .piLfBefore s = .next { s with result := .nibbleOrNone none } ∧
      exec .piLfAfter s = .next { s with result := .nibbleOrNone none } ∧
      exec .piPalette s = .next { s with result := .byteOrNone none } ∧
      exec .piDensity s = .next { s with result := .byteOrNone none })

/-- R220: STATUS_SET_BIT writes bit i of `status` only; the other seven bits, and everything else, are unchanged. -/
def Obligations.StatusSetBitWritesOneBit : Prop :=
  (∀ i : BitVec 3, HasCode (0b00101#5 ++ i) (fun r => .statusSetBit i r.bit)) ∧
  ∀ (i : BitVec 3) (v : Bool) (s : State), Ready s →
    ∃ st : Byte, exec (.statusSetBit i v) s = .next { s with seq := { s.seq with status := st }, result := .none } ∧
      ∀ j : BitVec 3, st.getLsbD j.toNat = if j = i then v else s.seq.status.getLsbD j.toNat

/-- R221, R222, R46: STATUS_GET_BIT returns bit i and STATUS_WORD returns `0x8100 | status`; neither writes anything. -/
def Obligations.StatusReadsReturnBitAndWord : Prop :=
  (∀ i : BitVec 3, HasCode (0b00100#5 ++ i) (fun _ => .statusGetBit i)) ∧ HasCode 0x30#8 (fun _ => .statusWord) ∧
  ∀ (i : BitVec 3) (s : State), Ready s →
    exec (.statusGetBit i) s = .next { s with result := .level (s.seq.status.getLsbD i.toNat) } ∧
    exec .statusWord s = .next { s with result := .word (0x8100#16 ||| s.seq.status.setWidth 16) }

/-! ## Edge port: one edge -/

/-- R134: a falling edge drives `(tx & mask) != 0` and changes nothing but `sout`; the data line is not sampled. ON_EDGE's code
is 0x03 (R120). -/
def Obligations.FallingEdgeDrivesTheLineOnly : Prop :=
  HasCode 0x03#8 (fun r => .onEdge r.clockLevel r.bit) ∧
  ∀ (d : Bool) (s : State), Ready s → DualEdge s →
    exec (.onEdge false d) s = .next { s with
      shifter := { s.shifter with sout := decide (s.shifter.tx &&& s.shifter.mask ≠ 0#16) },
      result := .level (decide (s.shifter.tx &&& s.shifter.mask ≠ 0#16)) }

/-- R150, R151: while unsynchronised a rising edge shifts the bit into the low end of the window, and the word 0x8833 starts
the Header1 transfer. -/
def Obligations.RisingEdgeFeedsTheSynchroniser : Prop :=
  ∀ (d : Bool) (s : State), Ready s → DualEdge s → controlPoint s = true → s.sync.synced = false →
    let w := (s.sync.window <<< 1) ||| (BitVec.ofBool d).setWidth 16
    (w ≠ 0x8833#16 →
      exec (.onEdge true d) s = .next { s with sync := { window := w, synced := false }, result := .level s.shifter.sout }) ∧
    (w = 0x8833#16 →
      exec (.onEdge true d) s = .next { s with
        sync := { window := 0#16, synced := true }, packet := { s.packet with pstate := .header1 },
        shifter := { mode := .wordBE, mask := 0x8000#16, rx := 0#16, tx := 0#16, sout := s.shifter.sout },
        timer := s.config.timeoutMs, result := .level s.shifter.sout })

/-- R133: within a transfer a rising edge sets bit `mask` of `rx` to the sampled level and shifts the mask right. -/
def Obligations.RisingEdgeSamplesOneBit : Prop :=
  ∀ (d : Bool) (s : State), Ready s → DualEdge s → controlPoint s = true → s.sync.synced = true →
    s.shifter.mask >>> 1 ≠ 0#16 →
    exec (.onEdge true d) s = .next { s with
      shifter := { s.shifter with
        rx := if d then s.shifter.rx ||| s.shifter.mask else s.shifter.rx, mask := s.shifter.mask >>> 1 },
      result := .level s.shifter.sout }

/-- R161: the rising edge that completes Header1. -/
def Obligations.Header1EdgeTakesCommandAndCompression : Prop :=
  ∀ (d : Bool) (s : State), Ready s → DualEdge s → LastBitOf .header1 s →
    exec (.onEdge true d) s = .next { s with
      packet := { s.packet with
        command := (sampledRx d s).extractLsb' 8 8, compression := (sampledRx d s).extractLsb' 0 8,
        computedChecksum := 0#16, dataIndex := 0#16, pstate := .header2 },
      shifter := { mode := .wordLE, mask := 0x8000#16, rx := 0#16, tx := 0#16, sout := s.shifter.sout },
      timer := s.config.timeoutMs, result := .level s.shifter.sout }

/-- R162: the rising edge that completes Header2: the little-endian length, clamped to 4 for PRINT; a non-empty DATA and a
PRINT go to Payload, everything else to Checksum. -/
def Obligations.Header2EdgeDispatchesByCommand : Prop :=
  ∀ (d : Bool) (s : State), Ready s → DualEdge s → LastBitOf .header2 s →
    let len : Half := (sampledRx d s).extractLsb' 0 8 ++ (sampledRx d s).extractLsb' 8 8
    let toPayload (l : Half) : State := { s with
      packet := { s.packet with dataLength := l, pstate := .payload },
      shifter := { mode := .byte, mask := 0x0080#16, rx := 0#16, tx := 0#16, sout := s.shifter.sout },
      timer := s.config.timeoutMs, result := .level s.shifter.sout }
    let toChecksum : State := { s with
      packet := { s.packet with dataLength := len, pstate := .checksum },
      shifter := { mode := .wordLE, mask := 0x8000#16, rx := 0#16, tx := 0#16, sout := s.shifter.sout },
      timer := s.config.timeoutMs, result := .level s.shifter.sout }
    (s.packet.command = 0x04#8 → len ≠ 0#16 → exec (.onEdge true d) s = .next (toPayload len)) ∧
    (s.packet.command = 0x04#8 → len = 0#16 → exec (.onEdge true d) s = .next toChecksum) ∧
    (s.packet.command = 0x02#8 →
      exec (.onEdge true d) s = .next (toPayload (if 4#16 < len then 4#16 else len))) ∧
    (s.packet.command ≠ 0x02#8 → s.packet.command ≠ 0x04#8 → exec (.onEdge true d) s = .next toChecksum)

/-- R165, R74: the rising edge that completes a payload byte: DATA bytes enter the FIFO, staged when staging is on and dropped
when it is full, PRINT bytes the print instruction at an index below 4; every byte is summed; the index wraps. -/
def Obligations.PayloadEdgeStoresAndSumsTheByte : Prop :=
  ∀ (d : Bool) (s : State), Ready s → DualEdge s → LastBitOf .payload s →
    let b : Byte := (sampledRx d s).extractLsb' 0 8
    let i := s.packet.dataIndex + 1#16
    let room := s.fifo.committed.length + s.fifo.staged.length < s.fifo.cap
    ∃ t, exec (.onEdge true d) s = .next t ∧
      t.packet = { s.packet with
        computedChecksum := s.packet.computedChecksum + b.setWidth 16, dataIndex := i,
        pstate := if i = s.packet.dataLength then .checksum else .payload } ∧
      t.shifter =
        (if i = s.packet.dataLength then
          { mode := .wordLE, mask := 0x8000#16, rx := 0#16, tx := 0#16, sout := s.shifter.sout }
        else { mode := .byte, mask := 0x0080#16, rx := 0#16, tx := 0#16, sout := s.shifter.sout }) ∧
      (s.packet.command = 0x04#8 → room → s.config.stageOnChecksum = true →
        t.fifo = { s.fifo with staged := s.fifo.staged ++ [b] }) ∧
      (s.packet.command = 0x04#8 → room → s.config.stageOnChecksum = false →
        t.fifo = { s.fifo with committed := s.fifo.committed ++ [b] }) ∧
      (s.packet.command ≠ 0x04#8 ∨ ¬ room → t.fifo = s.fifo) ∧
      (s.packet.command = 0x02#8 → s.packet.dataIndex = 0#16 →
        t.printInstruction = { s.printInstruction with byte0 := b }) ∧
      (s.packet.command = 0x02#8 → s.packet.dataIndex = 1#16 →
        t.printInstruction = { s.printInstruction with byte1 := b }) ∧
      (s.packet.command = 0x02#8 → s.packet.dataIndex = 2#16 →
        t.printInstruction = { s.printInstruction with byte2 := b }) ∧
      (s.packet.command = 0x02#8 → s.packet.dataIndex = 3#16 →
        t.printInstruction = { s.printInstruction with byte3 := b }) ∧
      (s.packet.command ≠ 0x02#8 ∨ 4#16 ≤ s.packet.dataIndex → t.printInstruction = s.printInstruction) ∧
      t.timer = s.config.timeoutMs ∧ t.seq = s.seq ∧ t.latches = s.latches ∧ t.sync = s.sync ∧
      t.resetReport = s.resetReport ∧ t.initialised = s.initialised ∧ t.result = .level s.shifter.sout

/-- R168: the rising edge that completes Checksum: the received word is little-endian, the header is folded in, bit 0 is set
on a mismatch when `use_checksum`, then the pre-dummy action runs, and the status word it leaves is loaded for Dummy. -/
def Obligations.ChecksumEdgeComparesAndArmsTheDummy : Prop :=
  ∀ (d : Bool) (s : State), Ready s → DualEdge s → LastBitOf .checksum s →
    let received : Half := (sampledRx d s).extractLsb' 0 8 ++ (sampledRx d s).extractLsb' 8 8
    let computed := s.packet.computedChecksum + headerSum s.packet.command s.packet.compression s.packet.dataLength
    let q := preDummy s.config s.packet.command { s.seq with status := comparedStatus s computed received }
    exec (.onEdge true d) s = .next { s with
      packet := { s.packet with receivedChecksum := received, computedChecksum := computed, pstate := .dummy },
      seq := q,
      shifter := { mode := .wordBE, mask := 0x8000#16, rx := 0#16, tx := 0x8100#16 ||| q.status.setWidth 16,
                   sout := s.shifter.sout },
      timer := s.config.timeoutMs, result := .level s.shifter.sout }

/-- R170: the rising edge that completes Dummy, for every command but BREAK: the staged bytes are committed or discarded by
this packet's sums, `packet_completed` is latched, the line goes low and the engine scans again. -/
def Obligations.DummyEdgeCompletesThePacket : Prop :=
  ∀ (d : Bool) (s : State), Ready s → DualEdge s → LastBitOf .dummy s → s.packet.command ≠ 0x08#8 →
    exec (.onEdge true d) s = .next { s with
      packet := { s.packet with pstate := .header1 }, sync := { s.sync with synced := false },
      shifter := { mode := .idle, mask := 0#16, rx := 0#16, tx := 0#16, sout := false },
      seq := postDummy s.packet.command s.packet.dataLength s.seq,
      latches := { raiseFlag s.packet.command s.packet.dataLength s.latches with packetCompleted := true },
      fifo := if s.config.stageOnChecksum = true then
          { s.fifo with
            committed := if s.packet.computedChecksum = s.packet.receivedChecksum
              then s.fifo.committed ++ s.fifo.staged else s.fifo.committed,
            staged := [] }
        else s.fifo,
      timer := s.config.timeoutMs, result := .level false }

/-- R183, R272: the rising edge that completes a BREAK's Dummy raises its latch and ends in CancelReset(BREAK): kept are
`initialised`, CAP, the print instruction and the latches. -/
def Obligations.BreakEndsInCancelReset : Prop :=
  ∀ (d : Bool) (s : State), Ready s → DualEdge s → LastBitOf .dummy s → s.packet.command = 0x08#8 →
    exec (.onEdge true d) s = .next { s with
      packet := { pstate := .header1, command := 0#8, compression := 0#8, dataLength := 0#16, dataIndex := 0#16,
                  receivedChecksum := 0#16, computedChecksum := 0#16 },
      sync := { window := 0#16, synced := false },
      shifter := { mode := .idle, mask := 0#16, rx := 0#16, tx := 0#16, sout := false },
      seq := { status := 0#8, dataPacketsRemaining := 0#8, untransmittedRemaining := 0#8, busyRemaining := 0#8 },
      latches := { s.latches with breakReceived := true, packetCompleted := true },
      fifo := { s.fifo with committed := [], staged := [] }, timer := 0#32, resetReport := true,
      result := .level false }

/-- R136, R135, R140: ON_RISING is the same rising edge, followed by a drive from the post-shift mask. Its code is 0x04
(R120). -/
def Obligations.OnRisingIsTheRisingEdgeThenADrive : Prop :=
  HasCode 0x04#8 (fun r => .onRising r.bit) ∧
  ∀ (d : Bool) (s : State), Ready s → RisingOnly s → controlPoint s = true →
    ∃ u, exec (.onEdge true d) { s with config := { s.config with risingOnlyIsr := false } } = .next u ∧
      exec (.onRising d) s = .next { u with
        config := s.config,
        shifter := { u.shifter with sout := decide (u.shifter.tx &&& u.shifter.mask ≠ 0#16) },
        result := .level (decide (u.shifter.tx &&& u.shifter.mask ≠ 0#16)) }

/-! ## Commands -/

/-- R185: the countdown step, case by case. Bits: 1 BUSY, 2 BUFFER_FULL, 3 UNPROCESSED_DATA. -/
def Obligations.InquiryStepCountsOneCounterDown : Prop :=
  ∀ q : Sequencer,
    (1#8 < q.untransmittedRemaining →
      inquiryStep q = { q with untransmittedRemaining := q.untransmittedRemaining - 1#8 }) ∧
    (q.untransmittedRemaining = 1#8 → q.busyRemaining ≠ 0#8 →
      inquiryStep q = { q with untransmittedRemaining := 0#8, status := (q.status &&& 0xF7#8) ||| 0x06#8 }) ∧
    (q.untransmittedRemaining = 1#8 → q.busyRemaining = 0#8 →
      inquiryStep q = { q with untransmittedRemaining := 0#8, status := q.status &&& 0xF7#8 }) ∧
    (q.untransmittedRemaining = 0#8 → 1#8 < q.busyRemaining →
      inquiryStep q = { q with busyRemaining := q.busyRemaining - 1#8 }) ∧
    (q.untransmittedRemaining = 0#8 → q.busyRemaining = 1#8 →
      inquiryStep q = { q with busyRemaining := 0#8, status := q.status &&& 0xFD#8 }) ∧
    (q.untransmittedRemaining = 0#8 → q.busyRemaining = 0#8 → inquiryStep q = q)

/-- R180: an INIT frame of any length from the awaiting-preamble state: no payload is taken, the counters are loaded, only bit 2
of the status is cleared, the Dummy carries the status, `init_received` and `packet_completed` are latched. The four bytes
after LENGTH are the checksum and the Dummy (R111, R162, R168, R170), and what the master sends after them is scanned. The row
as one whole frame is the model's choice, log 1. -/
def Obligations.InitFrameLoadsTheCounters : Prop :=
  ∀ (f : Frame) (s : State) (c0 c1 d0 d1 : Byte) (surplus : List Byte), f.wf = true → ReadyForFrame s →
    f.payload ++ frameTail f = c0 :: c1 :: d0 :: d1 :: surplus →
    let sum := headerSum 0x01#8 f.compression (frameLength f)
    let q : Sequencer :=
      { status := comparedStatus s sum (c1 ++ c0) &&& 0xFB#8, dataPacketsRemaining := s.config.dataPacketCount,
        untransmittedRemaining := 0#8, busyRemaining := 0#8 }
    exec (.cmdInit f) s = .next (thenSend 8 q.status surplus
      (frameEnd 0x01#8 f.compression (frameLength f) 0#16 (c1 ++ c0) sum q
        { s.latches with initReceived := true, packetCompleted := true } s))

/-- R181: a PRINT frame with a payload: the first `n = min(L, 4)` bytes are the print instruction, the bytes past `n` keep
their old values, `busy_remaining` is loaded and no status bit but the checksum comparison's changes. The two bytes after
the `n`-th are read as the checksum (R162, R244). The row as one whole frame is the model's choice, log 1. -/
def Obligations.PrintFrameStoresTheInstruction : Prop :=
  ∀ (f : Frame) (s : State) (c0 c1 d0 d1 : Byte) (surplus : List Byte), f.wf = true → ReadyForFrame s →
    f.payload ≠ [] → f.payload.drop 4 ++ frameTail f = c0 :: c1 :: d0 :: d1 :: surplus →
    let stored := f.payload.take 4
    let len := BitVec.ofNat 16 stored.length
    let sum := byteSum stored + headerSum 0x02#8 f.compression len
    let q : Sequencer := { s.seq with status := comparedStatus s sum (c1 ++ c0), busyRemaining := s.config.busyCount }
    exec (.cmdPrint f) s = .next (thenSend (8 + stored.length) q.status surplus
      (frameEnd 0x02#8 f.compression len len (c1 ++ c0) sum q
        { s.latches with printInstructionReceived := true, packetCompleted := true }
        { s with printInstruction :=
          { byte0 := stored.getD 0 s.printInstruction.byte0, byte1 := stored.getD 1 s.printInstruction.byte1,
            byte2 := stored.getD 2 s.printInstruction.byte2, byte3 := stored.getD 3 s.printInstruction.byte3 } }))

/-- R109, R162, D12: a PRINT frame with L = 0 leaves the engine in Payload: the frame's last four bytes are its first four
payload bytes, and they are the print instruction. The row as one whole frame is the model's choice, log 1. -/
def Obligations.EmptyPrintFrameEntersPayload : Prop :=
  ∀ (f : Frame) (s : State) (b0 b1 b2 b3 : Byte), ReadyForFrame s → f.payload = [] → frameTail f = [b0, b1, b2, b3] →
    exec (.cmdPrint f) s = .next { s with
      sync := { window := 0#16, synced := true },
      shifter := { mode := .byte, mask := 0x0080#16, rx := 0#16, tx := 0#16, sout := false },
      packet := { s.packet with
        pstate := .payload, command := 0x02#8, compression := f.compression, dataLength := 0#16, dataIndex := 4#16,
        computedChecksum := byteSum [b0, b1, b2, b3] },
      printInstruction := { byte0 := b0, byte1 := b1, byte2 := b2, byte3 := b3 },
      timer := s.config.timeoutMs, result := .back (List.replicate 10 0x00#8) }

/-- R182, R74, R170: a DATA frame of any length: the bytes that fit enter the FIFO in order, and with staging only if the sums
agree; `untransmitted_remaining` is loaded before the Dummy; after it `data_packets_remaining` counts down, setting bit 2
when it reaches 0, and bit 3 is set, or cleared by the empty packet; the latch is by length. The row as one whole frame is the
model's choice, log 1. -/
def Obligations.DataFrameQueuesThePayload : Prop :=
  ∀ (f : Frame) (s : State), f.wf = true → ReadyForFrame s →
    let len := frameLength f
    let sum := byteSum f.payload + headerSum 0x04#8 f.compression len
    let shown := comparedStatus s sum f.checksum
    let taken := f.payload.take (s.fifo.cap - s.fifo.committed.length)
    let full := if s.seq.dataPacketsRemaining = 1#8 then shown ||| 0x04#8 else shown
    let q : Sequencer :=
      { status := if f.payload = [] then full &&& 0xF7#8 else full ||| 0x08#8,
        dataPacketsRemaining :=
          if s.seq.dataPacketsRemaining = 0#8 then 0#8 else s.seq.dataPacketsRemaining - 1#8,
        untransmittedRemaining := s.config.untransmittedCount, busyRemaining := s.seq.busyRemaining }
    exec (.cmdData f) s = .next (thenSend (8 + f.payload.length) shown []
      (frameEnd 0x04#8 f.compression len len f.checksum sum q
        { s.latches with
          dataPacketReceived := s.latches.dataPacketReceived || !f.payload.isEmpty,
          dataEndReceived := s.latches.dataEndReceived || f.payload.isEmpty, packetCompleted := true }
        { s with fifo := { s.fifo with
          committed := if s.config.stageOnChecksum = true ∧ sum ≠ f.checksum then s.fifo.committed
            else s.fifo.committed ++ taken } }))

/-- R183, R272: a BREAK frame of any length: the Dummy carries what the countdown step leaves of a cleared status; then
everything but CAP, the print instruction and the latches is reset, `break_received` and `reset_report` among what is set. The
row as one whole frame is the model's choice, log 1. -/
def Obligations.BreakFrameCancelsEverything : Prop :=
  ∀ (f : Frame) (s : State) (c0 c1 d0 d1 : Byte) (surplus : List Byte), f.wf = true → ReadyForFrame s →
    f.payload ++ frameTail f = c0 :: c1 :: d0 :: d1 :: surplus →
    exec (.cmdBreak f) s = .next (thenSend 8 (inquiryStep { s.seq with status := 0x00#8 }).status surplus
      { s with
        shifter := .zero, sync := .zero, packet := .zero, seq := .zero, timer := 0#32,
        fifo := { s.fifo with committed := [], staged := [] }, resetReport := true,
        latches := { s.latches with breakReceived := true, packetCompleted := true } })

/-- R184: an INQUIRY frame of any length: the countdown step runs before the Dummy; after it bit 2 is cleared when both
countdowns are 0: which two, the spec decides in D16. The row as one whole frame is the model's choice, log 1. -/
def Obligations.InquiryFrameRunsTheCountdown : Prop :=
  ∀ (f : Frame) (s : State) (c0 c1 d0 d1 : Byte) (surplus : List Byte), f.wf = true → ReadyForFrame s →
    f.payload ++ frameTail f = c0 :: c1 :: d0 :: d1 :: surplus →
    let sum := headerSum 0x0F#8 f.compression (frameLength f)
    let p := inquiryStep { s.seq with status := comparedStatus s sum (c1 ++ c0) }
    let q : Sequencer := { p with
      status := if p.untransmittedRemaining = 0#8 ∧ p.busyRemaining = 0#8 then p.status &&& 0xFB#8 else p.status }
    exec (.cmdInquiry f) s = .next (thenSend 8 p.status surplus
      (frameEnd 0x0F#8 f.compression (frameLength f) 0#16 (c1 ++ c0) sum q
        { s.latches with inquiryReceived := true, packetCompleted := true } s))

/-- R187: a frame with any other command byte: no payload, no action and no command latch; the Dummy carries the status, which
only the checksum comparison changes, and `packet_completed` is latched (R111). The row as one whole frame is the model's choice,
log 1. -/
def Obligations.UnknownFrameOnlyCompletes : Prop :=
  ∀ (c : Byte) (f : Frame) (s : State) (c0 c1 d0 d1 : Byte) (surplus : List Byte), (Instr.cmdUnknown c f).wf = true →
    ReadyForFrame s → f.payload ++ frameTail f = c0 :: c1 :: d0 :: d1 :: surplus →
    let sum := headerSum c f.compression (frameLength f)
    let q : Sequencer := { s.seq with status := comparedStatus s sum (c1 ++ c0) }
    exec (.cmdUnknown c f) s = .next (thenSend 8 q.status surplus
      (frameEnd c f.compression (frameLength f) 0#16 (c1 ++ c0) sum q { s.latches with packetCompleted := true } s))

/-- R172: for a well-formed frame (the correct checksum of R103, and a payload the engine consumes whole) the two sums agree in
the state ChecksumDone leaves, where both are the checksum sent: the state after the bytes up to the checksum, BREAK's too.
They agree still after the whole frame; a BREAK has zeroed both by then (R272). The row as one whole frame is the model's
choice, log 1. -/
def Obligations.WellFormedFramesHaveEqualSums : Prop :=
  ∀ (c : Byte) (f : Frame) (s : State), f.wf = true → ReadyForFrame s → f.checksum = frameChecksum c f →
    (c = 0x04#8 ∨ (c = 0x02#8 ∧ 1 ≤ f.payload.length ∧ f.payload.length ≤ 4) ∨
      (c ≠ 0x04#8 ∧ c ≠ 0x02#8 ∧ f.payload = [])) →
    let u := (sendBytes ((frameBytes c f).take (8 + f.payload.length)) s).2
    u.packet.pstate = .dummy ∧ u.packet.command = c ∧ u.packet.receivedChecksum = f.checksum ∧
    u.packet.computedChecksum = f.checksum ∧
    ∀ t, exec (commandInstr c f) s = .next t → t.packet.computedChecksum = t.packet.receivedChecksum

/-! ## Runs of the two ports -/

/-- R122, R142: a command row is the run of its bit slots as edge operations: with those operations in front of the schedule,
the run of `step` over them ends in the state the row gives, but for the returned value. The row as one whole frame, and the
schedule, are the model's choice, logs 1 and 2. -/
def Obligations.FrameIsTheRunOfItsEdges : Prop :=
  ∀ (i : Instr) (bytes : List Byte) (s : State), isCommandRow i = true → encode i = .wire bytes → Ready s →
    controlPoint s = true →
    ∃ t u, exec i s = .next t ∧
      Host.Core.run Sys2Proof.core (byteInputs s.config.risingOnlyIsr bytes).length
        { s with inputs := byteInputs s.config.risingOnlyIsr bytes ++ s.inputs } = .next u ∧
      t = { u with result := t.result }

/-- R143: the bit the master reads in slot `k` of a frame is `sout` as it stands just before that slot's rising edge. The row as
one whole frame, and the schedule, are the model's choice, logs 1 and 2. -/
def Obligations.MasterReadsTheLineBeforeEachRisingEdge : Prop :=
  ∀ (i : Instr) (bytes : List Byte) (s : State) (k : Nat), isCommandRow i = true → encode i = .wire bytes → Ready s →
    controlPoint s = true → k < 8 * bytes.length →
    ∃ t back v, exec i s = .next t ∧ t.result = .back back ∧
      Host.Core.run Sys2Proof.core (if s.config.risingOnlyIsr then k else 2 * k + 1)
        { s with inputs := byteInputs s.config.risingOnlyIsr bytes ++ s.inputs } = .next v ∧
      (back.flatMap byteBits)[k]? = some v.shifter.sout

/-- R141: from the awaiting-preamble state the master reads the same bytes under both disciplines, whatever it sends, and the
engine ends in the same state but for the level held on the line. -/
def Obligations.BothDisciplinesLookAlikeOnTheWire : Prop :=
  ∀ (bytes : List Byte) (s : State), AwaitingPreamble s →
    let a := sendBytes bytes { s with config := { s.config with risingOnlyIsr := false } }
    let b := sendBytes bytes { s with config := { s.config with risingOnlyIsr := true } }
    a.1 = b.1 ∧
    a.2 = { b.2 with
      config := { s.config with risingOnlyIsr := false }, shifter := { b.2.shifter with sout := a.2.shifter.sout } }

/-- R154: noise that holds no sync word and does not end with its first 15 bits changes nothing of what follows: after the
noise and the sync word the engine decodes and answers as after the sync word alone. -/
def Obligations.NoiseBeforeAFrameIsHarmless : Prop :=
  ∀ (noise rest : List Bool) (s : State), AwaitingPreamble s → ¬ magicBits <:+: noise → ¬ magicBits.take 15 <:+ noise →
    (sendBits (noise ++ magicBits ++ rest) s).2 = (sendBits (magicBits ++ rest) s).2 ∧
    (sendBits (noise ++ magicBits ++ rest) s).1.drop (noise.length + 16) = (sendBits (magicBits ++ rest) s).1.drop 16

/-- R72: bytes leave the FIFO in the order they entered: after one DATA frame into an engine just initialised, with room for
its payload, the `k`-th TAKE_ONE returns the `k`-th payload byte. The row as one whole frame, and the schedule, are the model's
choice, logs 1 and 2. -/
def Obligations.TakenBytesAreThePayloadInOrder : Prop :=
  ∀ (cfg : Config) (cap k : Nat) (comp : Byte) (payload : List Byte), cfg.rawDump = false → payload.length < 65536 →
    payload.length ≤ cap → ∀ h : k < payload.length,
    ∃ t, Host.Core.run Sys2Proof.core (k + 2)
        { State.postInit cfg cap with
          inputs := encode (.cmdData (pkt 0x04#8 comp payload)) :: List.replicate (k + 1) (encode .takeOne) } = .next t ∧
      t.result = .byte payload[k] ∧ t.fifo.committed = payload.drop (k + 1)

/-- R188: once the countdown step takes `untransmitted_remaining` to 0 with `busy_remaining = b`, BUSY (bit 1) is reported by
exactly `b` INQUIRY Dummies in a row, and no longer by the next. The row as one whole frame, and the schedule, are the model's
choice, logs 1 and 2. -/
def Obligations.BusyIsReportedForBusyCountInquiries : Prop :=
  ∀ (s : State) (k : Nat), ReadyForFrame s → s.seq.untransmittedRemaining = 1#8 → s.seq.busyRemaining ≠ 0#8 →
    k ≤ s.seq.busyRemaining.toNat →
    ∃ t back, Host.Core.run Sys2Proof.core (k + 1)
        { s with inputs := List.replicate (k + 1) (encode (.cmdInquiry (pkt 0x0F#8 0#8 []))) } = .next t ∧
      t.result = .back back ∧ (back.getLastD 0#8).getLsbD 1 = decide (k < s.seq.busyRemaining.toNat)

/-! ## The dispatch of the command actions -/

/-- R186: the pre-dummy action, the post-dummy action and the latch of each command byte, as R180–R184 list them; every other
byte has none of the three (R187). Bits: 2 BUFFER_FULL, 3 UNPROCESSED_DATA. -/
def Obligations.CommandActionsAreDispatchedByTheByte : Prop :=
  ∀ (cfg : Config) (len : Half) (q : Sequencer) (l : Latches),
    (preDummy cfg 0x01#8 q =
        { status := q.status &&& 0xFB#8, dataPacketsRemaining := cfg.dataPacketCount, untransmittedRemaining := 0#8,
          busyRemaining := 0#8 } ∧
      postDummy 0x01#8 len q = q ∧ raiseFlag 0x01#8 len l = { l with initReceived := true }) ∧
    (preDummy cfg 0x02#8 q = { q with busyRemaining := cfg.busyCount } ∧
      postDummy 0x02#8 len q = q ∧ raiseFlag 0x02#8 len l = { l with printInstructionReceived := true }) ∧
    (preDummy cfg 0x04#8 q = { q with untransmittedRemaining := cfg.untransmittedCount } ∧
      postDummy 0x04#8 len q = { q with
        dataPacketsRemaining := if q.dataPacketsRemaining = 0#8 then 0#8 else q.dataPacketsRemaining - 1#8,
        status :=
          (if len = 0#16 then (if q.dataPacketsRemaining = 1#8 then q.status ||| 0x04#8 else q.status) &&& 0xF7#8
           else (if q.dataPacketsRemaining = 1#8 then q.status ||| 0x04#8 else q.status) ||| 0x08#8) } ∧
      raiseFlag 0x04#8 len l =
        (if len = 0#16 then { l with dataEndReceived := true } else { l with dataPacketReceived := true })) ∧
    (preDummy cfg 0x08#8 q = inquiryStep { q with status := 0x00#8 } ∧
      postDummy 0x08#8 len q = q ∧ raiseFlag 0x08#8 len l = { l with breakReceived := true }) ∧
    (preDummy cfg 0x0F#8 q = inquiryStep q ∧
      postDummy 0x0F#8 len q = { q with
        status := if q.untransmittedRemaining = 0#8 ∧ q.busyRemaining = 0#8 then q.status &&& 0xFB#8 else q.status } ∧
      raiseFlag 0x0F#8 len l = { l with inquiryReceived := true }) ∧
    ∀ c : Byte, c ≠ 0x01#8 → c ≠ 0x02#8 → c ≠ 0x04#8 → c ≠ 0x08#8 → c ≠ 0x0F#8 →
      preDummy cfg c q = q ∧ postDummy c len q = q ∧ raiseFlag c len l = l
end

