-- ==== Sys2Proof/Laws/State.lean ====
section
/-! SUPPORT. One lemma per field per update of `State`, and of the operations that update several fields. -/

namespace Sys2Proof.Machine

variable (s : State)

@[simp] theorem State.withInitialised_initialised (v : Bool) : (s.withInitialised v).initialised = v := rfl
@[simp] theorem State.withInitialised_shifter (v : Bool) : (s.withInitialised v).shifter = s.shifter := rfl
@[simp] theorem State.withInitialised_sync (v : Bool) : (s.withInitialised v).sync = s.sync := rfl
@[simp] theorem State.withInitialised_packet (v : Bool) : (s.withInitialised v).packet = s.packet := rfl
@[simp] theorem State.withInitialised_seq (v : Bool) : (s.withInitialised v).seq = s.seq := rfl
@[simp] theorem State.withInitialised_timer (v : Bool) : (s.withInitialised v).timer = s.timer := rfl
@[simp] theorem State.withInitialised_printInstruction (v : Bool) : (s.withInitialised v).printInstruction = s.printInstruction := rfl
@[simp] theorem State.withInitialised_latches (v : Bool) : (s.withInitialised v).latches = s.latches := rfl
@[simp] theorem State.withInitialised_resetReport (v : Bool) : (s.withInitialised v).resetReport = s.resetReport := rfl
@[simp] theorem State.withInitialised_fifo (v : Bool) : (s.withInitialised v).fifo = s.fifo := rfl
@[simp] theorem State.withInitialised_config (v : Bool) : (s.withInitialised v).config = s.config := rfl
@[simp] theorem State.withInitialised_inputs (v : Bool) : (s.withInitialised v).inputs = s.inputs := rfl
@[simp] theorem State.withInitialised_result (v : Bool) : (s.withInitialised v).result = s.result := rfl
@[simp] theorem State.withInitialised_draws (v : Bool) : (s.withInitialised v).draws = s.draws := rfl

@[simp] theorem State.withShifter_initialised (v : Shifter) : (s.withShifter v).initialised = s.initialised := rfl
@[simp] theorem State.withShifter_shifter (v : Shifter) : (s.withShifter v).shifter = v := rfl
@[simp] theorem State.withShifter_sync (v : Shifter) : (s.withShifter v).sync = s.sync := rfl
@[simp] theorem State.withShifter_packet (v : Shifter) : (s.withShifter v).packet = s.packet := rfl
@[simp] theorem State.withShifter_seq (v : Shifter) : (s.withShifter v).seq = s.seq := rfl
@[simp] theorem State.withShifter_timer (v : Shifter) : (s.withShifter v).timer = s.timer := rfl
@[simp] theorem State.withShifter_printInstruction (v : Shifter) : (s.withShifter v).printInstruction = s.printInstruction := rfl
@[simp] theorem State.withShifter_latches (v : Shifter) : (s.withShifter v).latches = s.latches := rfl
@[simp] theorem State.withShifter_resetReport (v : Shifter) : (s.withShifter v).resetReport = s.resetReport := rfl
@[simp] theorem State.withShifter_fifo (v : Shifter) : (s.withShifter v).fifo = s.fifo := rfl
@[simp] theorem State.withShifter_config (v : Shifter) : (s.withShifter v).config = s.config := rfl
@[simp] theorem State.withShifter_inputs (v : Shifter) : (s.withShifter v).inputs = s.inputs := rfl
@[simp] theorem State.withShifter_result (v : Shifter) : (s.withShifter v).result = s.result := rfl
@[simp] theorem State.withShifter_draws (v : Shifter) : (s.withShifter v).draws = s.draws := rfl

@[simp] theorem State.withSync_initialised (v : Sync) : (s.withSync v).initialised = s.initialised := rfl
@[simp] theorem State.withSync_shifter (v : Sync) : (s.withSync v).shifter = s.shifter := rfl
@[simp] theorem State.withSync_sync (v : Sync) : (s.withSync v).sync = v := rfl
@[simp] theorem State.withSync_packet (v : Sync) : (s.withSync v).packet = s.packet := rfl
@[simp] theorem State.withSync_seq (v : Sync) : (s.withSync v).seq = s.seq := rfl
@[simp] theorem State.withSync_timer (v : Sync) : (s.withSync v).timer = s.timer := rfl
@[simp] theorem State.withSync_printInstruction (v : Sync) : (s.withSync v).printInstruction = s.printInstruction := rfl
@[simp] theorem State.withSync_latches (v : Sync) : (s.withSync v).latches = s.latches := rfl
@[simp] theorem State.withSync_resetReport (v : Sync) : (s.withSync v).resetReport = s.resetReport := rfl
@[simp] theorem State.withSync_fifo (v : Sync) : (s.withSync v).fifo = s.fifo := rfl
@[simp] theorem State.withSync_config (v : Sync) : (s.withSync v).config = s.config := rfl
@[simp] theorem State.withSync_inputs (v : Sync) : (s.withSync v).inputs = s.inputs := rfl
@[simp] theorem State.withSync_result (v : Sync) : (s.withSync v).result = s.result := rfl
@[simp] theorem State.withSync_draws (v : Sync) : (s.withSync v).draws = s.draws := rfl

@[simp] theorem State.withPacket_initialised (v : Packet) : (s.withPacket v).initialised = s.initialised := rfl
@[simp] theorem State.withPacket_shifter (v : Packet) : (s.withPacket v).shifter = s.shifter := rfl
@[simp] theorem State.withPacket_sync (v : Packet) : (s.withPacket v).sync = s.sync := rfl
@[simp] theorem State.withPacket_packet (v : Packet) : (s.withPacket v).packet = v := rfl
@[simp] theorem State.withPacket_seq (v : Packet) : (s.withPacket v).seq = s.seq := rfl
@[simp] theorem State.withPacket_timer (v : Packet) : (s.withPacket v).timer = s.timer := rfl
@[simp] theorem State.withPacket_printInstruction (v : Packet) : (s.withPacket v).printInstruction = s.printInstruction := rfl
@[simp] theorem State.withPacket_latches (v : Packet) : (s.withPacket v).latches = s.latches := rfl
@[simp] theorem State.withPacket_resetReport (v : Packet) : (s.withPacket v).resetReport = s.resetReport := rfl
@[simp] theorem State.withPacket_fifo (v : Packet) : (s.withPacket v).fifo = s.fifo := rfl
@[simp] theorem State.withPacket_config (v : Packet) : (s.withPacket v).config = s.config := rfl
@[simp] theorem State.withPacket_inputs (v : Packet) : (s.withPacket v).inputs = s.inputs := rfl
@[simp] theorem State.withPacket_result (v : Packet) : (s.withPacket v).result = s.result := rfl
@[simp] theorem State.withPacket_draws (v : Packet) : (s.withPacket v).draws = s.draws := rfl

@[simp] theorem State.withSeq_initialised (v : Sequencer) : (s.withSeq v).initialised = s.initialised := rfl
@[simp] theorem State.withSeq_shifter (v : Sequencer) : (s.withSeq v).shifter = s.shifter := rfl
@[simp] theorem State.withSeq_sync (v : Sequencer) : (s.withSeq v).sync = s.sync := rfl
@[simp] theorem State.withSeq_packet (v : Sequencer) : (s.withSeq v).packet = s.packet := rfl
@[simp] theorem State.withSeq_seq (v : Sequencer) : (s.withSeq v).seq = v := rfl
@[simp] theorem State.withSeq_timer (v : Sequencer) : (s.withSeq v).timer = s.timer := rfl
@[simp] theorem State.withSeq_printInstruction (v : Sequencer) : (s.withSeq v).printInstruction = s.printInstruction := rfl
@[simp] theorem State.withSeq_latches (v : Sequencer) : (s.withSeq v).latches = s.latches := rfl
@[simp] theorem State.withSeq_resetReport (v : Sequencer) : (s.withSeq v).resetReport = s.resetReport := rfl
@[simp] theorem State.withSeq_fifo (v : Sequencer) : (s.withSeq v).fifo = s.fifo := rfl
@[simp] theorem State.withSeq_config (v : Sequencer) : (s.withSeq v).config = s.config := rfl
@[simp] theorem State.withSeq_inputs (v : Sequencer) : (s.withSeq v).inputs = s.inputs := rfl
@[simp] theorem State.withSeq_result (v : Sequencer) : (s.withSeq v).result = s.result := rfl
@[simp] theorem State.withSeq_draws (v : Sequencer) : (s.withSeq v).draws = s.draws := rfl

@[simp] theorem State.withTimer_initialised (v : Millis) : (s.withTimer v).initialised = s.initialised := rfl
@[simp] theorem State.withTimer_shifter (v : Millis) : (s.withTimer v).shifter = s.shifter := rfl
@[simp] theorem State.withTimer_sync (v : Millis) : (s.withTimer v).sync = s.sync := rfl
@[simp] theorem State.withTimer_packet (v : Millis) : (s.withTimer v).packet = s.packet := rfl
@[simp] theorem State.withTimer_seq (v : Millis) : (s.withTimer v).seq = s.seq := rfl
@[simp] theorem State.withTimer_timer (v : Millis) : (s.withTimer v).timer = v := rfl
@[simp] theorem State.withTimer_printInstruction (v : Millis) : (s.withTimer v).printInstruction = s.printInstruction := rfl
@[simp] theorem State.withTimer_latches (v : Millis) : (s.withTimer v).latches = s.latches := rfl
@[simp] theorem State.withTimer_resetReport (v : Millis) : (s.withTimer v).resetReport = s.resetReport := rfl
@[simp] theorem State.withTimer_fifo (v : Millis) : (s.withTimer v).fifo = s.fifo := rfl
@[simp] theorem State.withTimer_config (v : Millis) : (s.withTimer v).config = s.config := rfl
@[simp] theorem State.withTimer_inputs (v : Millis) : (s.withTimer v).inputs = s.inputs := rfl
@[simp] theorem State.withTimer_result (v : Millis) : (s.withTimer v).result = s.result := rfl
@[simp] theorem State.withTimer_draws (v : Millis) : (s.withTimer v).draws = s.draws := rfl

@[simp] theorem State.withPrintInstruction_initialised (v : PrintInstruction) : (s.withPrintInstruction v).initialised = s.initialised := rfl
@[simp] theorem State.withPrintInstruction_shifter (v : PrintInstruction) : (s.withPrintInstruction v).shifter = s.shifter := rfl
@[simp] theorem State.withPrintInstruction_sync (v : PrintInstruction) : (s.withPrintInstruction v).sync = s.sync := rfl
@[simp] theorem State.withPrintInstruction_packet (v : PrintInstruction) : (s.withPrintInstruction v).packet = s.packet := rfl
@[simp] theorem State.withPrintInstruction_seq (v : PrintInstruction) : (s.withPrintInstruction v).seq = s.seq := rfl
@[simp] theorem State.withPrintInstruction_timer (v : PrintInstruction) : (s.withPrintInstruction v).timer = s.timer := rfl
@[simp] theorem State.withPrintInstruction_printInstruction (v : PrintInstruction) : (s.withPrintInstruction v).printInstruction = v := rfl
@[simp] theorem State.withPrintInstruction_latches (v : PrintInstruction) : (s.withPrintInstruction v).latches = s.latches := rfl
@[simp] theorem State.withPrintInstruction_resetReport (v : PrintInstruction) : (s.withPrintInstruction v).resetReport = s.resetReport := rfl
@[simp] theorem State.withPrintInstruction_fifo (v : PrintInstruction) : (s.withPrintInstruction v).fifo = s.fifo := rfl
@[simp] theorem State.withPrintInstruction_config (v : PrintInstruction) : (s.withPrintInstruction v).config = s.config := rfl
@[simp] theorem State.withPrintInstruction_inputs (v : PrintInstruction) : (s.withPrintInstruction v).inputs = s.inputs := rfl
@[simp] theorem State.withPrintInstruction_result (v : PrintInstruction) : (s.withPrintInstruction v).result = s.result := rfl
@[simp] theorem State.withPrintInstruction_draws (v : PrintInstruction) : (s.withPrintInstruction v).draws = s.draws := rfl

@[simp] theorem State.withLatches_initialised (v : Latches) : (s.withLatches v).initialised = s.initialised := rfl
@[simp] theorem State.withLatches_shifter (v : Latches) : (s.withLatches v).shifter = s.shifter := rfl
@[simp] theorem State.withLatches_sync (v : Latches) : (s.withLatches v).sync = s.sync := rfl
@[simp] theorem State.withLatches_packet (v : Latches) : (s.withLatches v).packet = s.packet := rfl
@[simp] theorem State.withLatches_seq (v : Latches) : (s.withLatches v).seq = s.seq := rfl
@[simp] theorem State.withLatches_timer (v : Latches) : (s.withLatches v).timer = s.timer := rfl
@[simp] theorem State.withLatches_printInstruction (v : Latches) : (s.withLatches v).printInstruction = s.printInstruction := rfl
@[simp] theorem State.withLatches_latches (v : Latches) : (s.withLatches v).latches = v := rfl
@[simp] theorem State.withLatches_resetReport (v : Latches) : (s.withLatches v).resetReport = s.resetReport := rfl
@[simp] theorem State.withLatches_fifo (v : Latches) : (s.withLatches v).fifo = s.fifo := rfl
@[simp] theorem State.withLatches_config (v : Latches) : (s.withLatches v).config = s.config := rfl
@[simp] theorem State.withLatches_inputs (v : Latches) : (s.withLatches v).inputs = s.inputs := rfl
@[simp] theorem State.withLatches_result (v : Latches) : (s.withLatches v).result = s.result := rfl
@[simp] theorem State.withLatches_draws (v : Latches) : (s.withLatches v).draws = s.draws := rfl

@[simp] theorem State.withResetReport_initialised (v : Bool) : (s.withResetReport v).initialised = s.initialised := rfl
@[simp] theorem State.withResetReport_shifter (v : Bool) : (s.withResetReport v).shifter = s.shifter := rfl
@[simp] theorem State.withResetReport_sync (v : Bool) : (s.withResetReport v).sync = s.sync := rfl
@[simp] theorem State.withResetReport_packet (v : Bool) : (s.withResetReport v).packet = s.packet := rfl
@[simp] theorem State.withResetReport_seq (v : Bool) : (s.withResetReport v).seq = s.seq := rfl
@[simp] theorem State.withResetReport_timer (v : Bool) : (s.withResetReport v).timer = s.timer := rfl
@[simp] theorem State.withResetReport_printInstruction (v : Bool) : (s.withResetReport v).printInstruction = s.printInstruction := rfl
@[simp] theorem State.withResetReport_latches (v : Bool) : (s.withResetReport v).latches = s.latches := rfl
@[simp] theorem State.withResetReport_resetReport (v : Bool) : (s.withResetReport v).resetReport = v := rfl
@[simp] theorem State.withResetReport_fifo (v : Bool) : (s.withResetReport v).fifo = s.fifo := rfl
@[simp] theorem State.withResetReport_config (v : Bool) : (s.withResetReport v).config = s.config := rfl
@[simp] theorem State.withResetReport_inputs (v : Bool) : (s.withResetReport v).inputs = s.inputs := rfl
@[simp] theorem State.withResetReport_result (v : Bool) : (s.withResetReport v).result = s.result := rfl
@[simp] theorem State.withResetReport_draws (v : Bool) : (s.withResetReport v).draws = s.draws := rfl

@[simp] theorem State.withFifo_initialised (v : Fifo) : (s.withFifo v).initialised = s.initialised := rfl
@[simp] theorem State.withFifo_shifter (v : Fifo) : (s.withFifo v).shifter = s.shifter := rfl
@[simp] theorem State.withFifo_sync (v : Fifo) : (s.withFifo v).sync = s.sync := rfl
@[simp] theorem State.withFifo_packet (v : Fifo) : (s.withFifo v).packet = s.packet := rfl
@[simp] theorem State.withFifo_seq (v : Fifo) : (s.withFifo v).seq = s.seq := rfl
@[simp] theorem State.withFifo_timer (v : Fifo) : (s.withFifo v).timer = s.timer := rfl
@[simp] theorem State.withFifo_printInstruction (v : Fifo) : (s.withFifo v).printInstruction = s.printInstruction := rfl
@[simp] theorem State.withFifo_latches (v : Fifo) : (s.withFifo v).latches = s.latches := rfl
@[simp] theorem State.withFifo_resetReport (v : Fifo) : (s.withFifo v).resetReport = s.resetReport := rfl
@[simp] theorem State.withFifo_fifo (v : Fifo) : (s.withFifo v).fifo = v := rfl
@[simp] theorem State.withFifo_config (v : Fifo) : (s.withFifo v).config = s.config := rfl
@[simp] theorem State.withFifo_inputs (v : Fifo) : (s.withFifo v).inputs = s.inputs := rfl
@[simp] theorem State.withFifo_result (v : Fifo) : (s.withFifo v).result = s.result := rfl
@[simp] theorem State.withFifo_draws (v : Fifo) : (s.withFifo v).draws = s.draws := rfl

@[simp] theorem State.withConfig_initialised (v : Config) : (s.withConfig v).initialised = s.initialised := rfl
@[simp] theorem State.withConfig_shifter (v : Config) : (s.withConfig v).shifter = s.shifter := rfl
@[simp] theorem State.withConfig_sync (v : Config) : (s.withConfig v).sync = s.sync := rfl
@[simp] theorem State.withConfig_packet (v : Config) : (s.withConfig v).packet = s.packet := rfl
@[simp] theorem State.withConfig_seq (v : Config) : (s.withConfig v).seq = s.seq := rfl
@[simp] theorem State.withConfig_timer (v : Config) : (s.withConfig v).timer = s.timer := rfl
@[simp] theorem State.withConfig_printInstruction (v : Config) : (s.withConfig v).printInstruction = s.printInstruction := rfl
@[simp] theorem State.withConfig_latches (v : Config) : (s.withConfig v).latches = s.latches := rfl
@[simp] theorem State.withConfig_resetReport (v : Config) : (s.withConfig v).resetReport = s.resetReport := rfl
@[simp] theorem State.withConfig_fifo (v : Config) : (s.withConfig v).fifo = s.fifo := rfl
@[simp] theorem State.withConfig_config (v : Config) : (s.withConfig v).config = v := rfl
@[simp] theorem State.withConfig_inputs (v : Config) : (s.withConfig v).inputs = s.inputs := rfl
@[simp] theorem State.withConfig_result (v : Config) : (s.withConfig v).result = s.result := rfl
@[simp] theorem State.withConfig_draws (v : Config) : (s.withConfig v).draws = s.draws := rfl

@[simp] theorem State.withInputs_initialised (v : List Input) : (s.withInputs v).initialised = s.initialised := rfl
@[simp] theorem State.withInputs_shifter (v : List Input) : (s.withInputs v).shifter = s.shifter := rfl
@[simp] theorem State.withInputs_sync (v : List Input) : (s.withInputs v).sync = s.sync := rfl
@[simp] theorem State.withInputs_packet (v : List Input) : (s.withInputs v).packet = s.packet := rfl
@[simp] theorem State.withInputs_seq (v : List Input) : (s.withInputs v).seq = s.seq := rfl
@[simp] theorem State.withInputs_timer (v : List Input) : (s.withInputs v).timer = s.timer := rfl
@[simp] theorem State.withInputs_printInstruction (v : List Input) : (s.withInputs v).printInstruction = s.printInstruction := rfl
@[simp] theorem State.withInputs_latches (v : List Input) : (s.withInputs v).latches = s.latches := rfl
@[simp] theorem State.withInputs_resetReport (v : List Input) : (s.withInputs v).resetReport = s.resetReport := rfl
@[simp] theorem State.withInputs_fifo (v : List Input) : (s.withInputs v).fifo = s.fifo := rfl
@[simp] theorem State.withInputs_config (v : List Input) : (s.withInputs v).config = s.config := rfl
@[simp] theorem State.withInputs_inputs (v : List Input) : (s.withInputs v).inputs = v := rfl
@[simp] theorem State.withInputs_result (v : List Input) : (s.withInputs v).result = s.result := rfl
@[simp] theorem State.withInputs_draws (v : List Input) : (s.withInputs v).draws = s.draws := rfl

@[simp] theorem State.withResult_initialised (v : Result) : (s.withResult v).initialised = s.initialised := rfl
@[simp] theorem State.withResult_shifter (v : Result) : (s.withResult v).shifter = s.shifter := rfl
@[simp] theorem State.withResult_sync (v : Result) : (s.withResult v).sync = s.sync := rfl
@[simp] theorem State.withResult_packet (v : Result) : (s.withResult v).packet = s.packet := rfl
@[simp] theorem State.withResult_seq (v : Result) : (s.withResult v).seq = s.seq := rfl
@[simp] theorem State.withResult_timer (v : Result) : (s.withResult v).timer = s.timer := rfl
@[simp] theorem State.withResult_printInstruction (v : Result) : (s.withResult v).printInstruction = s.printInstruction := rfl
@[simp] theorem State.withResult_latches (v : Result) : (s.withResult v).latches = s.latches := rfl
@[simp] theorem State.withResult_resetReport (v : Result) : (s.withResult v).resetReport = s.resetReport := rfl
@[simp] theorem State.withResult_fifo (v : Result) : (s.withResult v).fifo = s.fifo := rfl
@[simp] theorem State.withResult_config (v : Result) : (s.withResult v).config = s.config := rfl
@[simp] theorem State.withResult_inputs (v : Result) : (s.withResult v).inputs = s.inputs := rfl
@[simp] theorem State.withResult_result (v : Result) : (s.withResult v).result = v := rfl
@[simp] theorem State.withResult_draws (v : Result) : (s.withResult v).draws = s.draws := rfl

@[simp] theorem State.withDraws_initialised (v : Nat) : (s.withDraws v).initialised = s.initialised := rfl
@[simp] theorem State.withDraws_shifter (v : Nat) : (s.withDraws v).shifter = s.shifter := rfl
@[simp] theorem State.withDraws_sync (v : Nat) : (s.withDraws v).sync = s.sync := rfl
@[simp] theorem State.withDraws_packet (v : Nat) : (s.withDraws v).packet = s.packet := rfl
@[simp] theorem State.withDraws_seq (v : Nat) : (s.withDraws v).seq = s.seq := rfl
@[simp] theorem State.withDraws_timer (v : Nat) : (s.withDraws v).timer = s.timer := rfl
@[simp] theorem State.withDraws_printInstruction (v : Nat) : (s.withDraws v).printInstruction = s.printInstruction := rfl
@[simp] theorem State.withDraws_latches (v : Nat) : (s.withDraws v).latches = s.latches := rfl
@[simp] theorem State.withDraws_resetReport (v : Nat) : (s.withDraws v).resetReport = s.resetReport := rfl
@[simp] theorem State.withDraws_fifo (v : Nat) : (s.withDraws v).fifo = s.fifo := rfl
@[simp] theorem State.withDraws_config (v : Nat) : (s.withDraws v).config = s.config := rfl
@[simp] theorem State.withDraws_inputs (v : Nat) : (s.withDraws v).inputs = s.inputs := rfl
@[simp] theorem State.withDraws_result (v : Nat) : (s.withDraws v).result = s.result := rfl
@[simp] theorem State.withDraws_draws (v : Nat) : (s.withDraws v).draws = v := rfl

@[simp] theorem hostReset_initialised : (hostReset s).initialised = s.initialised := rfl
@[simp] theorem hostReset_shifter : (hostReset s).shifter = .zero := rfl
@[simp] theorem hostReset_sync : (hostReset s).sync = .zero := rfl
@[simp] theorem hostReset_packet : (hostReset s).packet = .zero := rfl
@[simp] theorem hostReset_seq : (hostReset s).seq = .zero := rfl
@[simp] theorem hostReset_timer : (hostReset s).timer = 0#32 := rfl
@[simp] theorem hostReset_printInstruction : (hostReset s).printInstruction = .zero := rfl
@[simp] theorem hostReset_latches : (hostReset s).latches = .zero := rfl
@[simp] theorem hostReset_resetReport : (hostReset s).resetReport = false := rfl
@[simp] theorem hostReset_fifo : (hostReset s).fifo = ringClear s.fifo := rfl
@[simp] theorem hostReset_config : (hostReset s).config = s.config := rfl
@[simp] theorem hostReset_inputs : (hostReset s).inputs = s.inputs := rfl
@[simp] theorem hostReset_result : (hostReset s).result = .none := rfl
@[simp] theorem hostReset_draws : (hostReset s).draws = s.draws := rfl

@[simp] theorem cancelReset_initialised (r : CancelReason) : (cancelReset r s).initialised = s.initialised := rfl
@[simp] theorem cancelReset_shifter (r : CancelReason) : (cancelReset r s).shifter = .zero := rfl
@[simp] theorem cancelReset_sync (r : CancelReason) : (cancelReset r s).sync = .zero := rfl
@[simp] theorem cancelReset_packet (r : CancelReason) : (cancelReset r s).packet = .zero := rfl
@[simp] theorem cancelReset_seq (r : CancelReason) : (cancelReset r s).seq = .zero := rfl
@[simp] theorem cancelReset_timer (r : CancelReason) : (cancelReset r s).timer = 0#32 := rfl
@[simp] theorem cancelReset_printInstruction (r : CancelReason) : (cancelReset r s).printInstruction = s.printInstruction := rfl
@[simp] theorem cancelReset_latches (r : CancelReason) : (cancelReset r s).latches = s.latches := rfl
@[simp] theorem cancelReset_resetReport (r : CancelReason) : (cancelReset r s).resetReport = decide (r = .break_) := rfl
@[simp] theorem cancelReset_fifo (r : CancelReason) : (cancelReset r s).fifo = ringClear s.fifo := rfl
@[simp] theorem cancelReset_config (r : CancelReason) : (cancelReset r s).config = s.config := rfl
@[simp] theorem cancelReset_inputs (r : CancelReason) : (cancelReset r s).inputs = s.inputs := rfl
@[simp] theorem cancelReset_result (r : CancelReason) : (cancelReset r s).result = s.result := rfl
@[simp] theorem cancelReset_draws (r : CancelReason) : (cancelReset r s).draws = s.draws := rfl

@[simp] theorem armTransfer_initialised (p : PState) (m : Mode) (w : Half) : (armTransfer p m w s).initialised = s.initialised := rfl
@[simp] theorem armTransfer_shifter (p : PState) (m : Mode) (w : Half) : (armTransfer p m w s).shifter = beginTransfer m w s.shifter := rfl
@[simp] theorem armTransfer_sync (p : PState) (m : Mode) (w : Half) : (armTransfer p m w s).sync = s.sync := rfl
@[simp] theorem armTransfer_packet (p : PState) (m : Mode) (w : Half) : (armTransfer p m w s).packet = { s.packet with pstate := p } := rfl
@[simp] theorem armTransfer_seq (p : PState) (m : Mode) (w : Half) : (armTransfer p m w s).seq = s.seq := rfl
@[simp] theorem armTransfer_timer (p : PState) (m : Mode) (w : Half) : (armTransfer p m w s).timer = s.timer := rfl
@[simp] theorem armTransfer_printInstruction (p : PState) (m : Mode) (w : Half) : (armTransfer p m w s).printInstruction = s.printInstruction := rfl
@[simp] theorem armTransfer_latches (p : PState) (m : Mode) (w : Half) : (armTransfer p m w s).latches = s.latches := rfl
@[simp] theorem armTransfer_resetReport (p : PState) (m : Mode) (w : Half) : (armTransfer p m w s).resetReport = s.resetReport := rfl
@[simp] theorem armTransfer_fifo (p : PState) (m : Mode) (w : Half) : (armTransfer p m w s).fifo = s.fifo := rfl
@[simp] theorem armTransfer_config (p : PState) (m : Mode) (w : Half) : (armTransfer p m w s).config = s.config := rfl
@[simp] theorem armTransfer_inputs (p : PState) (m : Mode) (w : Half) : (armTransfer p m w s).inputs = s.inputs := rfl
@[simp] theorem armTransfer_result (p : PState) (m : Mode) (w : Half) : (armTransfer p m w s).result = s.result := rfl
@[simp] theorem armTransfer_draws (p : PState) (m : Mode) (w : Half) : (armTransfer p m w s).draws = s.draws := rfl

@[simp] theorem driveOut_initialised : (driveOut s).initialised = s.initialised := rfl
@[simp] theorem driveOut_shifter : (driveOut s).shifter = { s.shifter with sout := driveLevel s.shifter } := rfl
@[simp] theorem driveOut_sync : (driveOut s).sync = s.sync := rfl
@[simp] theorem driveOut_packet : (driveOut s).packet = s.packet := rfl
@[simp] theorem driveOut_seq : (driveOut s).seq = s.seq := rfl
@[simp] theorem driveOut_timer : (driveOut s).timer = s.timer := rfl
@[simp] theorem driveOut_printInstruction : (driveOut s).printInstruction = s.printInstruction := rfl
@[simp] theorem driveOut_latches : (driveOut s).latches = s.latches := rfl
@[simp] theorem driveOut_resetReport : (driveOut s).resetReport = s.resetReport := rfl
@[simp] theorem driveOut_fifo : (driveOut s).fifo = s.fifo := rfl
@[simp] theorem driveOut_config : (driveOut s).config = s.config := rfl
@[simp] theorem driveOut_inputs : (driveOut s).inputs = s.inputs := rfl
@[simp] theorem driveOut_result : (driveOut s).result = s.result := rfl
@[simp] theorem driveOut_draws : (driveOut s).draws = s.draws := rfl

@[simp] theorem drawByte_initialised : (drawByte s).initialised = s.initialised := rfl
@[simp] theorem drawByte_shifter : (drawByte s).shifter = s.shifter := rfl
@[simp] theorem drawByte_sync : (drawByte s).sync = s.sync := rfl
@[simp] theorem drawByte_packet : (drawByte s).packet = s.packet := rfl
@[simp] theorem drawByte_seq : (drawByte s).seq = s.seq := rfl
@[simp] theorem drawByte_timer : (drawByte s).timer = s.timer := rfl
@[simp] theorem drawByte_printInstruction : (drawByte s).printInstruction = s.printInstruction := rfl
@[simp] theorem drawByte_latches : (drawByte s).latches = s.latches := rfl
@[simp] theorem drawByte_resetReport : (drawByte s).resetReport = s.resetReport := rfl
@[simp] theorem drawByte_fifo : (drawByte s).fifo = s.fifo := rfl
@[simp] theorem drawByte_config : (drawByte s).config = s.config := rfl
@[simp] theorem drawByte_inputs : (drawByte s).inputs = s.inputs := rfl
@[simp] theorem drawByte_result : (drawByte s).result = .byte (Config.freeByte s.draws) := rfl
@[simp] theorem drawByte_draws : (drawByte s).draws = s.draws + 1 := rfl

@[simp] theorem returnSout_initialised : (returnSout s).initialised = s.initialised := rfl
@[simp] theorem returnSout_shifter : (returnSout s).shifter = s.shifter := rfl
@[simp] theorem returnSout_sync : (returnSout s).sync = s.sync := rfl
@[simp] theorem returnSout_packet : (returnSout s).packet = s.packet := rfl
@[simp] theorem returnSout_seq : (returnSout s).seq = s.seq := rfl
@[simp] theorem returnSout_timer : (returnSout s).timer = s.timer := rfl
@[simp] theorem returnSout_printInstruction : (returnSout s).printInstruction = s.printInstruction := rfl
@[simp] theorem returnSout_latches : (returnSout s).latches = s.latches := rfl
@[simp] theorem returnSout_resetReport : (returnSout s).resetReport = s.resetReport := rfl
@[simp] theorem returnSout_fifo : (returnSout s).fifo = s.fifo := rfl
@[simp] theorem returnSout_config : (returnSout s).config = s.config := rfl
@[simp] theorem returnSout_inputs : (returnSout s).inputs = s.inputs := rfl
@[simp] theorem returnSout_result : (returnSout s).result = .level s.shifter.sout := rfl
@[simp] theorem returnSout_draws : (returnSout s).draws = s.draws := rfl

end Sys2Proof.Machine
end

