-- ==== Sys2Proof/Laws/Ops.lean ====
section
/-! SUPPORT. One spec lemma per shared operation: what a guard lets through, what the FIFO, the status bits, the counters and
the shifter primitives can do. -/

namespace Sys2Proof.Machine

/-! ## Guards -/

theorem whenReady_of_ready {s : State} (h : Ready s) (go : Host.Outcome State Fault Refusal) : whenReady s go = go := by
  simp [whenReady, h.1, h.2]

theorem whenReady_next {s t : State} {go : Host.Outcome State Fault Refusal} (h : whenReady s go = .next t) :
    Ready s ∧ go = .next t := by
  unfold whenReady at h
  split at h
  · cases h
  · split at h
    · exact ⟨⟨by simpa using ‹¬ s.config.rawDump = true›, ‹_›⟩, h⟩
    · cases h

theorem whenReady_fault {s : State} {f : Fault} {go : Host.Outcome State Fault Refusal}
    (h : whenReady s go = .fault f) : Ready s ∧ go = .fault f := by
  unfold whenReady at h
  split at h
  · cases h
  · split at h
    · exact ⟨⟨by simpa using ‹¬ s.config.rawDump = true›, ‹_›⟩, h⟩
    · cases h

theorem whenReady_refused_iff (s : State) (go : Host.Outcome State Fault Refusal) :
    (∃ r, whenReady s go = .refused r) ↔
      s.config.rawDump = true ∨ s.initialised = false ∨ (Ready s ∧ ∃ r, go = .refused r) := by
  unfold whenReady
  cases hr : s.config.rawDump <;> cases hi : s.initialised <;> simp [hr, hi, Ready]

theorem whenControlled_of {s : State} (h : controlPoint s = true) (go : Host.Outcome State Fault Refusal) :
    whenControlled s go = go := by
  simp [whenControlled, h]

theorem whenControlled_not {s : State} (h : controlPoint s = false) (go : Host.Outcome State Fault Refusal) :
    whenControlled s go = .fault .brokenControlPoint := by
  simp [whenControlled, h]

theorem whenControlled_next {s t : State} {go : Host.Outcome State Fault Refusal}
    (h : whenControlled s go = .next t) : controlPoint s = true ∧ go = .next t := by
  unfold whenControlled at h
  split at h
  · exact ⟨‹_›, h⟩
  · cases h

/-! ## Status bits -/

/-- Bit i is written and the other seven are unchanged (10_state.md R45). -/
theorem getStatusBit_putStatusBit (st : Byte) (i j : BitVec 3) (v : Bool) :
    getStatusBit (putStatusBit st i v) j = if j = i then v else getStatusBit st j := by
  unfold getStatusBit putStatusBit
  have key : (1#8 <<< i.toNat).getLsbD j.toNat = decide (j = i) := by revert i j; decide
  have hj : j.toNat < 8 := j.isLt
  cases v
  · simp only [Bool.false_eq_true, if_false, BitVec.getLsbD_and, BitVec.getLsbD_not, key, hj, decide_true,
      Bool.true_and]
    by_cases h : j = i <;> simp [h]
  · simp only [if_true, BitVec.getLsbD_or, key]
    by_cases h : j = i <;> simp [h]

@[simp] theorem putBit_dataPacketsRemaining (q : Sequencer) (i : BitVec 3) (v : Bool) :
    (q.putBit i v).dataPacketsRemaining = q.dataPacketsRemaining := rfl
@[simp] theorem putBit_untransmittedRemaining (q : Sequencer) (i : BitVec 3) (v : Bool) :
    (q.putBit i v).untransmittedRemaining = q.untransmittedRemaining := rfl
@[simp] theorem putBit_busyRemaining (q : Sequencer) (i : BitVec 3) (v : Bool) :
    (q.putBit i v).busyRemaining = q.busyRemaining := rfl
@[simp] theorem putBit_status (q : Sequencer) (i : BitVec 3) (v : Bool) :
    (q.putBit i v).status = putStatusBit q.status i v := rfl

/-- The status word is `0x8100 | status` (10_state.md R46). -/
theorem statusWordOf_eq (q : Sequencer) : statusWordOf q = 0x8100#16 ||| q.status.setWidth 16 := by
  unfold statusWordOf deviceId
  generalize q.status = st
  revert st
  decide

/-- The high byte of the status word is the device ID, whatever the status (R46). -/
theorem hiByte_statusWordOf (q : Sequencer) : hiByte (statusWordOf q) = deviceId := by
  rw [statusWordOf_eq]
  generalize q.status = st
  revert st
  decide

/-! ## FIFO -/

/-- What RingEnqueue can do (20_memory.md R74). -/
theorem ringEnqueue_cases (stage : Bool) (b : Byte) (f : Fifo) :
    (f.cap ≤ f.committed.length + f.staged.length ∧ ringEnqueue stage b f = f) ∨
    (f.committed.length + f.staged.length < f.cap ∧ stage = true ∧
      ringEnqueue stage b f = { f with staged := f.staged ++ [b] }) ∨
    (f.committed.length + f.staged.length < f.cap ∧ stage = false ∧
      ringEnqueue stage b f = { f with committed := f.committed ++ [b] }) := by
  unfold ringEnqueue
  split
  · exact .inl ⟨‹_›, rfl⟩
  · cases stage
    · exact .inr (.inr ⟨by omega, rfl, by simp⟩)
    · exact .inr (.inl ⟨by omega, rfl, by simp⟩)

@[simp] theorem ringEnqueue_cap (stage : Bool) (b : Byte) (f : Fifo) : (ringEnqueue stage b f).cap = f.cap := by
  obtain ⟨_, h⟩ | ⟨_, _, h⟩ | ⟨_, _, h⟩ := ringEnqueue_cases stage b f <;> simp [h]

@[simp] theorem ringClear_eq (f : Fifo) : ringClear f = { cap := f.cap, committed := [], staged := [] } := rfl

/-- What the staging gate can do (42_packet_fsm.md R170). -/
theorem settleStaged_cases (cfg : Config) (p : Packet) (f : Fifo) :
    (cfg.stageOnChecksum = false ∧ settleStaged cfg p f = f) ∨
    (cfg.stageOnChecksum = true ∧ sumsAgree p = true ∧
      settleStaged cfg p f = { f with committed := f.committed ++ f.staged, staged := [] }) ∨
    (cfg.stageOnChecksum = true ∧ sumsAgree p = false ∧ settleStaged cfg p f = { f with staged := [] }) := by
  unfold settleStaged
  cases cfg.stageOnChecksum <;> cases h : sumsAgree p <;> simp [ringCommit, ringDiscardStaged]

@[simp] theorem settleStaged_cap (cfg : Config) (p : Packet) (f : Fifo) : (settleStaged cfg p f).cap = f.cap := by
  obtain ⟨_, h⟩ | ⟨_, _, h⟩ | ⟨_, _, h⟩ := settleStaged_cases cfg p f <;> simp [h]

/-! ## Countdown step -/

/-- What InquiryStep can do to the counters (43_commands.md R185): at most one of them moves, by one, and never below 0. -/
theorem inquiryStep_counters (q : Sequencer) :
    (inquiryStep q).dataPacketsRemaining = q.dataPacketsRemaining ∧
    (inquiryStep q).untransmittedRemaining =
      (if q.untransmittedRemaining = 0#8 then 0#8 else q.untransmittedRemaining - 1#8) ∧
    (inquiryStep q).busyRemaining =
      (if q.untransmittedRemaining = 0#8 then (if q.busyRemaining = 0#8 then 0#8 else q.busyRemaining - 1#8)
       else q.busyRemaining) := by
  unfold inquiryStep
  by_cases hu : q.untransmittedRemaining = 0#8
  · by_cases hb : q.busyRemaining = 0#8
    · simp [hu, hb]
    · simp only [hu, hb, if_true, if_false]
      split <;> simp
  · simp only [hu, if_false]
    split
    · split <;> simp
    · simp

/-- InquiryStep sets none of the bits 4 to 7. -/
theorem inquiryStep_status_high (q : Sequencer) (k : BitVec 3) (hk : 4#3 ≤ k) :
    getStatusBit (inquiryStep q).status k = getStatusBit q.status k := by
  have h1 : k ≠ busyBit := by rintro rfl; revert hk; decide
  have h2 : k ≠ bufferFullBit := by rintro rfl; revert hk; decide
  have h3 : k ≠ unprocessedDataBit := by rintro rfl; revert hk; decide
  unfold inquiryStep
  split
  · split
    · rfl
    · dsimp only
      split <;> simp [getStatusBit_putStatusBit, h1]
  · dsimp only
    split
    · split <;> simp [getStatusBit_putStatusBit, h1, h2, h3]
    · rfl

/-! ## Taking an input -/

theorem takeInput_cons {s : State} {x : Input} {rest : List Input} (h : s.inputs = x :: rest) :
    takeInput s = some (x, { s with inputs := rest }) := by
  unfold takeInput
  rw [h]
  rfl

theorem takeInput_nil {s : State} (h : s.inputs = []) : takeInput s = none := by
  unfold takeInput
  rw [h]

end Sys2Proof.Machine
end

