-- ==== Sys2Proof/Laws/Commands.lean ====
section
/-! SUPPORT. One spec lemma per command action (spec/43_commands.md R180–R187) and per foreground operation with several cases
(20_memory.md R78, R79; 44_host_interface.md R202): everything each can do. -/

namespace Sys2Proof.Machine

/-! ## Command actions -/

/-- `classify` names a known command exactly when the byte is its value (30_encoding.md R110). -/
theorem classify_eq_data (c : Byte) : classify c = .data ↔ c = 0x04#8 := by revert c; decide
theorem classify_eq_print (c : Byte) : classify c = .print ↔ c = 0x02#8 := by revert c; decide
theorem classify_eq_break (c : Byte) : classify c = .break_ ↔ c = 0x08#8 := by revert c; decide
theorem classify_eq_init (c : Byte) : classify c = .init ↔ c = 0x01#8 := by revert c; decide
theorem classify_eq_inquiry (c : Byte) : classify c = .inquiry ↔ c = 0x0F#8 := by revert c; decide

/-- What a pre-dummy action leaves in the counters (R180–R185). -/
theorem preDummy_counters (cfg : Config) (c : Byte) (q : Sequencer) :
    ((preDummy cfg c q).dataPacketsRemaining = q.dataPacketsRemaining ∨
      (preDummy cfg c q).dataPacketsRemaining = cfg.dataPacketCount) ∧
    ((preDummy cfg c q).untransmittedRemaining = q.untransmittedRemaining ∨
      (preDummy cfg c q).untransmittedRemaining = cfg.untransmittedCount ∨
      (preDummy cfg c q).untransmittedRemaining = 0#8 ∨
      (q.untransmittedRemaining ≠ 0#8 ∧
        (preDummy cfg c q).untransmittedRemaining = q.untransmittedRemaining - 1#8)) ∧
    ((preDummy cfg c q).busyRemaining = q.busyRemaining ∨ (preDummy cfg c q).busyRemaining = cfg.busyCount ∨
      (preDummy cfg c q).busyRemaining = 0#8 ∨
      (q.busyRemaining ≠ 0#8 ∧ (preDummy cfg c q).busyRemaining = q.busyRemaining - 1#8)) := by
  have step : ∀ q : Sequencer,
      (inquiryStep q).dataPacketsRemaining = q.dataPacketsRemaining ∧
      ((inquiryStep q).untransmittedRemaining = 0#8 ∨
        (q.untransmittedRemaining ≠ 0#8 ∧ (inquiryStep q).untransmittedRemaining = q.untransmittedRemaining - 1#8)) ∧
      ((inquiryStep q).busyRemaining = q.busyRemaining ∨ (inquiryStep q).busyRemaining = 0#8 ∨
        (q.busyRemaining ≠ 0#8 ∧ (inquiryStep q).busyRemaining = q.busyRemaining - 1#8)) := by
    intro q
    obtain ⟨h1, h2, h3⟩ := inquiryStep_counters q
    refine ⟨h1, ?_, ?_⟩
    · rw [h2]
      split
      · exact .inl rfl
      · exact .inr ⟨‹_›, rfl⟩
    · rw [h3]
      split
      · split
        · exact .inr (.inl rfl)
        · exact .inr (.inr ⟨‹_›, rfl⟩)
      · exact .inl rfl
  unfold preDummy
  split
  · exact ⟨.inr rfl, .inr (.inr (.inl rfl)), .inr (.inr (.inl rfl))⟩
  · exact ⟨.inl rfl, .inl rfl, .inr (.inl rfl)⟩
  · exact ⟨.inl rfl, .inr (.inl rfl), .inl rfl⟩
  · obtain ⟨h1, h2, h3⟩ := step { q with status := 0x00#8 }
    exact ⟨.inl h1, .inr (.inr h2), h3.imp id .inr⟩
  · obtain ⟨h1, h2, h3⟩ := step q
    exact ⟨.inl h1, .inr (.inr h2), h3.imp id .inr⟩
  · exact ⟨.inl rfl, .inl rfl, .inl rfl⟩

/-- No pre-dummy action sets a bit of 4 to 7 (10_state.md R45). -/
theorem preDummy_status_high (cfg : Config) (c : Byte) (q : Sequencer) (k : BitVec 3) (hk : 4#3 ≤ k)
    (h : getStatusBit (preDummy cfg c q).status k = true) : getStatusBit q.status k = true := by
  have h2 : k ≠ bufferFullBit := by rintro rfl; revert hk; decide
  unfold preDummy at h
  split at h
  · simpa [preInit, getStatusBit_putStatusBit, h2] using h
  · exact h
  · exact h
  · rw [preBreak, inquiryStep_status_high _ k hk] at h
    simp [getStatusBit] at h
  · rwa [preInquiry, inquiryStep_status_high _ k hk] at h
  · exact h

/-- What a post-dummy action leaves in the counters: only DATA moves one, down by one and never below 0 (R182). -/
theorem postDummy_counters (c : Byte) (len : Half) (q : Sequencer) :
    (postDummy c len q).untransmittedRemaining = q.untransmittedRemaining ∧
    (postDummy c len q).busyRemaining = q.busyRemaining ∧
    ((postDummy c len q).dataPacketsRemaining = q.dataPacketsRemaining ∨
      (q.dataPacketsRemaining ≠ 0#8 ∧ (postDummy c len q).dataPacketsRemaining = q.dataPacketsRemaining - 1#8)) := by
  unfold postDummy
  split
  · exact ⟨rfl, rfl, .inl rfl⟩
  · exact ⟨rfl, rfl, .inl rfl⟩
  · unfold postData
    by_cases h0 : q.dataPacketsRemaining = 0#8
    · simp only [h0, if_true]
      split <;> exact ⟨rfl, rfl, .inl h0⟩
    · simp only [h0, if_false]
      split <;> split <;> exact ⟨rfl, rfl, .inr ⟨h0, rfl⟩⟩
  · exact ⟨rfl, rfl, .inl rfl⟩
  · unfold postInquiry
    split <;> exact ⟨rfl, rfl, .inl rfl⟩
  · exact ⟨rfl, rfl, .inl rfl⟩

/-- No post-dummy action sets a bit of 4 to 7 (10_state.md R45). -/
theorem postDummy_status_high (c : Byte) (len : Half) (q : Sequencer) (k : BitVec 3) (hk : 4#3 ≤ k) :
    getStatusBit (postDummy c len q).status k = getStatusBit q.status k := by
  have h2 : k ≠ bufferFullBit := by rintro rfl; revert hk; decide
  have h3 : k ≠ unprocessedDataBit := by rintro rfl; revert hk; decide
  unfold postDummy
  split
  · rfl
  · rfl
  · unfold postData
    dsimp only
    split <;> split <;> (try split) <;> simp [getStatusBit_putStatusBit, h2, h3]
  · rfl
  · unfold postInquiry
    split <;> simp [getStatusBit_putStatusBit, h2]
  · rfl

/-- Raising a flag clears no latch (10_state.md R50). -/
theorem raiseFlag_le (c : Byte) (len : Half) (l : Latches) :
    (l.initReceived = true → (raiseFlag c len l).initReceived = true) ∧
    (l.dataPacketReceived = true → (raiseFlag c len l).dataPacketReceived = true) ∧
    (l.dataEndReceived = true → (raiseFlag c len l).dataEndReceived = true) ∧
    (l.printInstructionReceived = true → (raiseFlag c len l).printInstructionReceived = true) ∧
    (l.breakReceived = true → (raiseFlag c len l).breakReceived = true) ∧
    (l.inquiryReceived = true → (raiseFlag c len l).inquiryReceived = true) ∧
    (raiseFlag c len l).packetCompleted = l.packetCompleted := by
  unfold raiseFlag
  split <;> (try split) <;> simp

/-! ## Foreground operations -/

/-- What RingTake can do (20_memory.md R78). -/
theorem ringTake_cases (s : State) :
    (s.fifo.committed = [] ∧ ringTake s = drawByte s) ∨
    (∃ b, s.fifo.committed = [b] ∧ ringTake s =
      { s with fifo := { s.fifo with committed := [] }, seq := s.seq.putBit unprocessedDataBit false,
               result := .byte b }) ∨
    (∃ b c rest, s.fifo.committed = b :: c :: rest ∧ ringTake s =
      { s with fifo := { s.fifo with committed := c :: rest }, result := .byte b }) := by
  unfold ringTake
  match h : s.fifo.committed with
  | [] => exact .inl ⟨rfl, rfl⟩
  | [b] => exact .inr (.inl ⟨b, rfl, rfl⟩)
  | b :: c :: rest => exact .inr (.inr ⟨b, c, rest, rfl, rfl⟩)

/-- What RingPeek can do (20_memory.md R79). -/
theorem ringPeek_cases (k : Nat) (s : State) :
    (∃ h : k < s.fifo.committed.length, ringPeek k s = s.withResult (.byte s.fifo.committed[k])) ∨
    (s.fifo.committed.length ≤ k ∧ ringPeek k s = drawByte s) := by
  unfold ringPeek
  by_cases h : k < s.fifo.committed.length
  · exact .inl ⟨h, by rw [List.getElem?_eq_getElem h]⟩
  · exact .inr ⟨by omega, by rw [List.getElem?_eq_none (by omega)]⟩

/-- What TICK can do (44_host_interface.md R202). -/
theorem tickEffect_cases (e : Millis) (s : State) :
    (s.timer = 0#32 ∧ tickEffect e s = (s.withResetReport false).withResult (.bool s.resetReport)) ∨
    (s.timer ≠ 0#32 ∧ s.timer ≤ e ∧ tickEffect e s =
      (cancelReset .timeout ((s.withResetReport false).withTimer 0#32)).withResult (.bool true)) ∨
    (e < s.timer ∧ tickEffect e s =
      ((s.withResetReport false).withTimer (s.timer - e)).withResult (.bool s.resetReport)) := by
  unfold tickEffect
  by_cases h0 : s.timer = 0#32
  · exact .inl ⟨h0, by simp [h0]⟩
  · by_cases hle : s.timer ≤ e
    · exact .inr (.inl ⟨h0, hle, by simp [h0, countDown, hle]⟩)
    · have hlt : e < s.timer := by bv_omega
      have hne : s.timer - e ≠ 0#32 := by bv_omega
      exact .inr (.inr ⟨hlt, by simp [h0, countDown, hle, hne]⟩)

end Sys2Proof.Machine
end

