-- ==== Sys2Proof/Laws/Packet.lean ====
section
/-! SUPPORT. What one rising edge can do (spec/40_bit_shifter.md R133): the fields it never writes, the control point it
keeps, and one equation per case. -/

namespace Sys2Proof.Machine

/-! ## Fields no transition writes -/

/-- The fields no rising edge, and so no frame, writes. -/
structure SameEnvironment (s t : State) : Prop where
  initialised : t.initialised = s.initialised
  config : t.config = s.config
  inputs : t.inputs = s.inputs
  draws : t.draws = s.draws
  result : t.result = s.result
  cap : t.fifo.cap = s.fifo.cap

theorem SameEnvironment.refl (s : State) : SameEnvironment s s := ⟨rfl, rfl, rfl, rfl, rfl, rfl⟩

theorem SameEnvironment.trans {s t u : State} (h : SameEnvironment s t) (k : SameEnvironment t u) :
    SameEnvironment s u :=
  ⟨k.1.trans h.1, k.2.trans h.2, k.3.trans h.3, k.4.trans h.4, k.5.trans h.5, k.6.trans h.6⟩

theorem syncStep_same (d : Bool) (s : State) : SameEnvironment s (syncStep d s) := by
  unfold syncStep syncMatch
  dsimp only
  split <;> exact ⟨rfl, rfl, rfl, rfl, rfl, rfl⟩

theorem header1Done_same (s : State) : SameEnvironment s (header1Done s) := ⟨rfl, rfl, rfl, rfl, rfl, rfl⟩

theorem header2Done_same (s : State) : SameEnvironment s (header2Done s) := by
  unfold header2Done
  dsimp only
  split
  · split <;> exact ⟨rfl, rfl, rfl, rfl, rfl, rfl⟩
  all_goals exact ⟨rfl, rfl, rfl, rfl, rfl, rfl⟩

/-- What storing a payload byte can do (42_packet_fsm.md R165). -/
theorem storePayload_cases (b : Byte) (s : State) :
    (classify s.packet.command = .data ∧
      storePayload b s = s.withFifo (ringEnqueue s.config.stageOnChecksum b s.fifo)) ∨
    (classify s.packet.command = .print ∧
      storePayload b s = s.withPrintInstruction (PrintInstruction.put s.packet.dataIndex b s.printInstruction)) ∨
    (classify s.packet.command ≠ .data ∧ classify s.packet.command ≠ .print ∧ storePayload b s = s) := by
  unfold storePayload
  split <;> simp_all

theorem storePayload_same (b : Byte) (s : State) : SameEnvironment s (storePayload b s) := by
  obtain ⟨_, h⟩ | ⟨_, h⟩ | ⟨_, _, h⟩ := storePayload_cases b s <;> rw [h] <;> constructor <;> simp

theorem payloadDone_same (s : State) : SameEnvironment s (payloadDone s) := by
  refine (storePayload_same (rxByte s.shifter) s).trans ?_
  unfold payloadDone
  dsimp only
  split <;> exact ⟨rfl, rfl, rfl, rfl, rfl, rfl⟩

theorem checksumDone_same (s : State) : SameEnvironment s (checksumDone s) := ⟨rfl, rfl, rfl, rfl, rfl, rfl⟩

theorem dummyDone_same (s : State) : SameEnvironment s (dummyDone s) := by
  unfold dummyDone
  dsimp only
  split <;> constructor <;> simp

theorem transition_same (s : State) : SameEnvironment s (transition s) := by
  have h0 : SameEnvironment s (s.withTimer s.config.timeoutMs) := ⟨rfl, rfl, rfl, rfl, rfl, rfl⟩
  unfold transition
  dsimp only
  split
  · exact h0.trans (header1Done_same _)
  · exact h0.trans (header2Done_same _)
  · exact h0.trans (payloadDone_same _)
  · exact h0.trans (checksumDone_same _)
  · exact h0.trans (dummyDone_same _)

theorem sampleRising_same (d : Bool) (s : State) : SameEnvironment s (sampleRising d s) := by
  have h0 : SameEnvironment s (s.withShifter (sampleBit d s.shifter)) := ⟨rfl, rfl, rfl, rfl, rfl, rfl⟩
  unfold sampleRising
  dsimp only
  split
  · split
    · exact h0.trans (transition_same _)
    · exact h0
  · exact syncStep_same d s

theorem driveOut_same (s : State) : SameEnvironment s (driveOut s) := ⟨rfl, rfl, rfl, rfl, rfl, rfl⟩

/-! ## The three cases of a rising edge -/

/-- While unsynchronised a rising edge feeds the synchroniser (41_preamble_sync.md R150, R153). -/
theorem sampleRising_unsynced (d : Bool) {s : State} (h : s.sync.synced = false) : sampleRising d s = syncStep d s := by
  simp [sampleRising, h]

/-- A rising edge within a transfer samples one bit (40_bit_shifter.md R133). -/
theorem sampleRising_within (d : Bool) {s : State} (h : s.sync.synced = true) (hm : s.shifter.mask >>> 1 ≠ 0#16) :
    sampleRising d s = s.withShifter (sampleBit d s.shifter) := by
  simp [sampleRising, h, sampleBit, hm]

/-- The rising edge that empties the mask runs one transition (R133, 42_packet_fsm.md R160). -/
theorem sampleRising_last (d : Bool) {s : State} (h : s.sync.synced = true) (hm : s.shifter.mask >>> 1 = 0#16) :
    sampleRising d s = transition (s.withShifter (sampleBit d s.shifter)) := by
  simp [sampleRising, h, sampleBit, hm]

/-! ## The timer -/

/-- Every transition refills the timer, but the one that ends a BREAK disarms it (42_packet_fsm.md R160,
70_reset_and_hazards.md R272). -/
theorem transition_timer (s : State) :
    (transition s).timer =
      if s.packet.pstate = .dummy ∧ classify s.packet.command = .break_ then 0#32 else s.config.timeoutMs := by
  have store : ∀ b (t : State), (storePayload b t).timer = t.timer := by
    intro b t
    obtain ⟨_, h⟩ | ⟨_, h⟩ | ⟨_, _, h⟩ := storePayload_cases b t <;> rw [h] <;> rfl
  unfold transition
  dsimp only
  cases hp : s.packet.pstate
  · rfl
  · show (header2Done _).timer = _
    unfold header2Done
    dsimp only
    split
    · split <;> rfl
    all_goals rfl
  · show (payloadDone _).timer = _
    unfold payloadDone
    dsimp only
    split <;> exact store _ _
  · rfl
  · by_cases hb : classify s.packet.command = .break_
    · simp [dummyDone, hb, cancelReset]
    · simp [dummyDone, hb, armTransfer]

/-! ## The control point -/

theorem controlPoint_synced {s : State} (h : s.sync.synced = true) :
    controlPoint s = true ↔ s.shifter.mask ≠ 0#16 ∧ pairOk s.packet.pstate s.shifter.mode = true := by
  simp [controlPoint, h]

theorem controlPoint_unsynced {s : State} (h : s.sync.synced = false) :
    controlPoint s = true ↔ s.shifter.mode = .idle ∧ s.shifter.mask = 0#16 ∧ s.packet.pstate = .header1 := by
  simp [controlPoint, h, and_assoc]

/-- Arming a transfer of the mode that goes with the packet state gives a legal control point (10_state.md R53 (b)). -/
theorem controlPoint_armed {s t : State} {p : PState} {m : Mode} {w : Half} (hs : t.sync.synced = true)
    (ht : t.shifter = beginTransfer m w s.shifter) (hp : t.packet.pstate = p) (h : pairOk p m = true) :
    controlPoint t = true := by
  rw [controlPoint_synced hs, ht, hp]
  cases p <;> cases m <;> simp_all [pairOk, beginTransfer, startMask]

theorem controlPoint_syncStep (d : Bool) {s : State} (h : controlPoint s = true) (hs : s.sync.synced = false) :
    controlPoint (syncStep d s) = true := by
  unfold syncStep
  dsimp only
  split
  · exact controlPoint_armed (s := s) (p := .header1) (m := .wordBE) (w := 0#16) rfl rfl rfl rfl
  · simpa [controlPoint, hs] using h

/-- Every transition ends at a legal control point (42_packet_fsm.md R160). -/
theorem controlPoint_transition {s : State} (hs : s.sync.synced = true) : controlPoint (transition s) = true := by
  unfold transition
  dsimp only
  split
  · exact controlPoint_armed (p := .header2) (m := .wordLE) (w := 0#16) (by exact hs) rfl rfl rfl
  · unfold header2Done
    dsimp only
    split
    · split
      · exact controlPoint_armed (p := .checksum) (m := .wordLE) (w := 0#16) (by exact hs) rfl rfl rfl
      · exact controlPoint_armed (p := .payload) (m := .byte) (w := 0#16) (by exact hs) rfl rfl rfl
    · exact controlPoint_armed (p := .payload) (m := .byte) (w := 0#16) (by exact hs) rfl rfl rfl
    all_goals exact controlPoint_armed (p := .checksum) (m := .wordLE) (w := 0#16) (by exact hs) rfl rfl rfl
  · have key : ∀ b (t : State), (storePayload b t).sync = t.sync := by
      intro b t
      obtain ⟨_, h⟩ | ⟨_, h⟩ | ⟨_, _, h⟩ := storePayload_cases b t <;> rw [h] <;> rfl
    unfold payloadDone
    dsimp only
    split
    · exact controlPoint_armed (p := .checksum) (m := .wordLE) (w := 0#16) (by simp [key, hs]) rfl rfl rfl
    · exact controlPoint_armed (p := .payload) (m := .byte) (w := 0#16) (by simp [key, hs]) rfl rfl rfl
  · exact controlPoint_armed (p := .dummy) (m := .wordBE) (by exact hs) rfl rfl rfl
  · unfold dummyDone
    dsimp only
    split
    · rfl
    · rfl

/-- A rising edge keeps the control-point invariant (10_state.md R53). -/
theorem controlPoint_sampleRising (d : Bool) {s : State} (h : controlPoint s = true) :
    controlPoint (sampleRising d s) = true := by
  cases hs : s.sync.synced
  · rw [sampleRising_unsynced d hs]
    exact controlPoint_syncStep d h hs
  · by_cases hm : s.shifter.mask >>> 1 = 0#16
    · rw [sampleRising_last d hs hm]
      exact controlPoint_transition hs
    · rw [sampleRising_within d hs hm]
      rw [controlPoint_synced hs] at h
      exact (controlPoint_synced (by exact hs)).2 ⟨hm, h.2⟩

theorem controlPoint_driveOut {s : State} : controlPoint (driveOut s) = controlPoint s := rfl

/-! ## Bit slots -/

theorem sendBit_dual {s : State} (h : DualEdge s) (d : Bool) :
    sendBit d s = (driveLevel s.shifter, sampleRising d (driveOut s)) := by
  have h' : s.config.risingOnlyIsr = false := h
  simp [sendBit, h']

theorem sendBit_rising {s : State} (h : RisingOnly s) (d : Bool) :
    sendBit d s = (s.shifter.sout, driveOut (sampleRising d s)) := by
  have h' : s.config.risingOnlyIsr = true := h
  simp [sendBit, h']

theorem sendBit_same (d : Bool) (s : State) : SameEnvironment s (sendBit d s).2 := by
  cases h : s.config.risingOnlyIsr
  · rw [sendBit_dual h]
    exact (driveOut_same s).trans (sampleRising_same _ _)
  · rw [sendBit_rising h]
    exact (sampleRising_same _ _).trans (driveOut_same _)

theorem controlPoint_sendBit (d : Bool) {s : State} (h : controlPoint s = true) : controlPoint (sendBit d s).2 = true := by
  cases hd : s.config.risingOnlyIsr
  · rw [sendBit_dual hd]
    exact controlPoint_sampleRising d (by rw [controlPoint_driveOut]; exact h)
  · rw [sendBit_rising hd, controlPoint_driveOut]
    exact controlPoint_sampleRising d h

/-! ## Inductions over what the master sends -/

/-- What holds of the start and is kept by every bit slot holds after any bits. -/
theorem sendBits_induction {P : State → Prop} (step : ∀ d s, P s → P (sendBit d s).2) :
    ∀ (bits : List Bool) (s : State), P s → P (sendBits bits s).2
  | [], _, h => h
  | d :: ds, s, h => sendBits_induction step ds _ (step d s h)

/-- What holds of the start and is kept by every bit slot holds after any bytes. -/
theorem sendBytes_induction {P : State → Prop} (step : ∀ d s, P s → P (sendBit d s).2) :
    ∀ (bytes : List Byte) (s : State), P s → P (sendBytes bytes s).2
  | [], _, h => h
  | b :: bs, s, h => sendBytes_induction step bs _ (sendBits_induction step (byteBits b) s h)

theorem sendBytes_same (bytes : List Byte) (s : State) : SameEnvironment s (sendBytes bytes s).2 :=
  sendBytes_induction (P := SameEnvironment s) (fun d t h => h.trans (sendBit_same d t)) bytes s (.refl s)

theorem controlPoint_sendBytes (bytes : List Byte) {s : State} (h : controlPoint s = true) :
    controlPoint (sendBytes bytes s).2 = true :=
  sendBytes_induction (P := fun t => controlPoint t = true) (fun d _ ht => controlPoint_sendBit d ht) bytes s h

theorem sendBits_append (as bs : List Bool) (s : State) :
    sendBits (as ++ bs) s =
      ((sendBits as s).1 ++ (sendBits bs (sendBits as s).2).1, (sendBits bs (sendBits as s).2).2) := by
  induction as generalizing s with
  | nil => rfl
  | cons a as ih => simp [sendBits, ih]

theorem sendBytes_append (as bs : List Byte) (s : State) :
    sendBytes (as ++ bs) s =
      ((sendBytes as s).1 ++ (sendBytes bs (sendBytes as s).2).1, (sendBytes bs (sendBytes as s).2).2) := by
  induction as generalizing s with
  | nil => rfl
  | cons a as ih => simp [sendBytes, ih]

/-- Sending bytes is sending their bits in wire order (20_memory.md R81). -/
theorem sendBytes_state (bytes : List Byte) (s : State) :
    (sendBytes bytes s).2 = (sendBits (bytes.flatMap byteBits) s).2 := by
  induction bytes generalizing s with
  | nil => rfl
  | cons b bs ih => simp [sendBytes, sendByte, sendBits_append, ih]

/-- What sending bytes answers, once the guards are passed. -/
theorem transmit_eq {s : State} (h : Ready s) (hc : controlPoint s = true) (bytes : List Byte) :
    transmit bytes s = .next ((sendBytes bytes s).2.withResult (.back (sendBytes bytes s).1)) := by
  rw [transmit, whenReady_of_ready h, whenControlled_of hc]

end Sys2Proof.Machine
end

