-- ==== Sys2Proof/Laws/Transfer.lean ====
section
/-! SUPPORT. Whole transfers (spec/40_bit_shifter.md R131–R141): what sending the bits of one byte or one word does while the
shifter is active, under both edge disciplines at once. -/

namespace Sys2Proof.Machine

/-- What the rising-only discipline adds after a rising edge: the drive from the new mask (40_bit_shifter.md R135). -/
def settle (s : State) : State := if s.config.risingOnlyIsr then driveOut s else s

/-- The line already shows the bit of the current mask where the discipline drives after the rising edge (R141). -/
def LineReady (s : State) : Prop := s.config.risingOnlyIsr = true → s.shifter.sout = driveLevel s.shifter

/-- The engine has nothing to send and holds the line low. -/
def Quiet (s : State) : Prop := s.shifter.tx = 0#16 ∧ s.shifter.sout = false

theorem driveLevel_of_tx {h : Shifter} (hx : h.tx = 0#16) : driveLevel h = false := by simp [driveLevel, hx]

theorem driveOut_of_quiet {s : State} (h : Quiet s) : driveOut s = s := by
  have : driveLevel s.shifter = s.shifter.sout := by rw [driveLevel_of_tx h.1, h.2]
  unfold driveOut
  rw [this]
  rfl

theorem settle_of_quiet {s : State} (h : Quiet s) : settle s = s := by
  unfold settle
  split
  · exact driveOut_of_quiet h
  · rfl

theorem Quiet.lineReady {s : State} (h : Quiet s) : LineReady s := fun _ => by rw [h.2, driveLevel_of_tx h.1]

theorem settle_same (s : State) : SameEnvironment s (settle s) := by
  unfold settle
  split
  · exact driveOut_same s
  · exact .refl s

/-- `settle` writes `sout` and nothing else. -/
theorem settle_eq (s : State) : ∃ b, settle s = s.withShifter { s.shifter with sout := b } := by
  unfold settle
  split
  · exact ⟨_, rfl⟩
  · exact ⟨s.shifter.sout, rfl⟩

/-! ## One bit -/

/-- One bit slot, whatever the discipline: the master reads the driven level (R141). -/
theorem sendBit_eq (d : Bool) {s : State} (h : LineReady s) :
    sendBit d s = (driveLevel s.shifter, settle (sampleRising d (driveOut s))) := by
  cases hc : s.config.risingOnlyIsr
  · rw [sendBit_dual hc]
    have : (sampleRising d (driveOut s)).config.risingOnlyIsr = false := by
      rw [(sampleRising_same d (driveOut s)).config]
      exact hc
    simp [settle, this]
  · have hd : driveOut s = s := by
      unfold driveOut
      rw [← h hc]
      rfl
    rw [sendBit_rising hc, hd, h hc]
    have : (sampleRising d s).config.risingOnlyIsr = true := by
      rw [(sampleRising_same d s).config]
      exact hc
    simp [settle, this]

/-- After a bit slot the line is ready for the next one. -/
theorem lineReady_sendBit (d : Bool) (s : State) : LineReady (sendBit d s).2 := by
  intro hr
  have hc : s.config.risingOnlyIsr = true := by
    rw [← (sendBit_same d s).config]
    exact hr
  rw [sendBit_rising hc]
  rfl

/-! ## Sampling several bits -/

/-- The register after the bits have been sampled in. -/
def sampleBits (ds : List Bool) (h : Shifter) : Shifter := ds.foldl (fun h d => sampleBit d h) h

theorem sampleBits_tx (ds : List Bool) (h : Shifter) : (sampleBits ds h).tx = h.tx := by
  induction ds generalizing h with
  | nil => rfl
  | cons d ds ih => exact (ih _).trans rfl

theorem sampleBits_mode (ds : List Bool) (h : Shifter) : (sampleBits ds h).mode = h.mode := by
  induction ds generalizing h with
  | nil => rfl
  | cons d ds ih => exact (ih _).trans rfl

theorem sampleBits_sout (ds : List Bool) (h : Shifter) : (sampleBits ds h).sout = h.sout := by
  induction ds generalizing h with
  | nil => rfl
  | cons d ds ih => exact (ih _).trans rfl

theorem sampleBits_mask (ds : List Bool) (h : Shifter) : (sampleBits ds h).mask = h.mask >>> ds.length := by
  induction ds generalizing h with
  | nil => simp [sampleBits]
  | cons d ds ih =>
    have : (sampleBits ds (sampleBit d h)).mask = (h.mask >>> 1) >>> ds.length := ih _
    rw [show sampleBits (d :: ds) h = sampleBits ds (sampleBit d h) from rfl, this, List.length_cons,
      ← BitVec.shiftRight_add, Nat.add_comm]

/-- A mask that survives more shifts survives fewer. -/
theorem shiftRight_ne_zero_of_le {m : Half} {i j : Nat} (hij : i ≤ j) (h : m >>> j ≠ 0#16) : m >>> i ≠ 0#16 := by
  intro h0
  apply h
  obtain ⟨k, rfl⟩ := Nat.exists_eq_add_of_le hij
  rw [BitVec.shiftRight_add, h0]
  simp

/-- The register's contents are only ever added to, and nothing else of the shifter matters to them. -/
theorem sampleBits_eq (ds : List Bool) (m r : Half) (md : Mode) (t : Half) (o : Bool) :
    sampleBits ds { mode := md, mask := m, rx := r, tx := t, sout := o } =
      { mode := md, mask := m >>> ds.length,
        rx := r ||| (sampleBits ds { mode := .idle, mask := m, rx := 0#16, tx := 0#16, sout := false }).rx,
        tx := t, sout := o } := by
  induction ds generalizing m r md t o with
  | nil => simp [sampleBits]
  | cons d ds ih =>
    have e : ∀ g : Shifter, sampleBits (d :: ds) g = sampleBits ds (sampleBit d g) := fun _ => rfl
    have hs : m >>> 1 >>> ds.length = m >>> (d :: ds).length := by
      rw [← BitVec.shiftRight_add, List.length_cons, Nat.add_comm]
    rw [e, e]
    simp only [sampleBit]
    rw [ih, ih (m >>> 1) (if d = true then 0#16 ||| m else 0#16), hs]
    cases d <;> simp [BitVec.or_assoc]

/-- A byte into the low half of the register (40_bit_shifter.md R137). -/
theorem sampleBits_low (b : Byte) (h : Shifter) (hm : h.mask = 0x0080#16) :
    sampleBits (byteBits b) h = { h with rx := h.rx ||| zext16 b, mask := 0#16 } := by
  obtain ⟨mode, mask, rx, tx, sout⟩ := h
  obtain rfl : mask = 0x0080#16 := hm
  have key : ∀ b : Byte,
      (sampleBits (byteBits b) { mode := .idle, mask := 0x0080#16, rx := 0#16, tx := 0#16, sout := false }).rx =
        zext16 b := by decide
  rw [sampleBits_eq, key b]
  simp [byteBits]

/-- A byte into the high half of the register. -/
theorem sampleBits_high (b : Byte) (h : Shifter) (hm : h.mask = 0x8000#16) :
    sampleBits (byteBits b) h = { h with rx := h.rx ||| (b ++ 0#8), mask := 0x0080#16 } := by
  obtain ⟨mode, mask, rx, tx, sout⟩ := h
  obtain rfl : mask = 0x8000#16 := hm
  have key : ∀ b : Byte,
      (sampleBits (byteBits b) { mode := .idle, mask := 0x8000#16, rx := 0#16, tx := 0#16, sout := false }).rx =
        b ++ 0#8 := by decide
  rw [sampleBits_eq, key b]
  simp [byteBits]

/-- The levels driven for the next `n` bits. -/
def drivenBits : Nat → Shifter → List Bool
  | 0, _ => []
  | n + 1, h => driveLevel h :: drivenBits n { h with mask := h.mask >>> 1 }

/-- The levels driven depend on the register to send and the mask only. -/
theorem drivenBits_congr {g h : Shifter} (ht : g.tx = h.tx) (hm : g.mask = h.mask) (n : Nat) :
    drivenBits n g = drivenBits n h := by
  induction n generalizing g h with
  | zero => rfl
  | succ n ih =>
    have e : drivenBits n { g with mask := g.mask >>> 1 } = drivenBits n { h with mask := h.mask >>> 1 } :=
      ih ht (by rw [hm])
    simp only [drivenBits, driveLevel, e]
    rw [ht, hm]

/-- Bits within a transfer: they are sampled, the master reads the driven levels, and the line is ready for the next. -/
theorem sendBits_within (ds : List Bool) {s : State} (hs : s.sync.synced = true) (hl : LineReady s)
    (hm : s.shifter.mask >>> ds.length ≠ 0#16) :
    (sendBits ds s).1 = drivenBits ds.length s.shifter ∧
    (∃ o, (sendBits ds s).2 = s.withShifter { sampleBits ds s.shifter with sout := o }) ∧
    LineReady (sendBits ds s).2 := by
  induction ds generalizing s with
  | nil => exact ⟨rfl, ⟨s.shifter.sout, rfl⟩, hl⟩
  | cons d ds ih =>
    have h1 : s.shifter.mask >>> 1 ≠ 0#16 := shiftRight_ne_zero_of_le (by simp) hm
    have hb : ∃ o, sendBit d s = (driveLevel s.shifter, s.withShifter { sampleBit d s.shifter with sout := o }) := by
      rw [sendBit_eq d hl, sampleRising_within d (s := driveOut s) hs h1]
      obtain ⟨b, hb⟩ := settle_eq ((driveOut s).withShifter (sampleBit d (driveOut s).shifter))
      exact ⟨b, by rw [hb]; rfl⟩
    obtain ⟨o, hb⟩ := hb
    have hl' := lineReady_sendBit d s
    have hm' : s.shifter.mask >>> 1 >>> ds.length ≠ 0#16 := by
      rw [← BitVec.shiftRight_add, Nat.add_comm]
      exact hm
    simp only [sendBits]
    rw [hb] at hl' ⊢
    obtain ⟨i1, ⟨o', i2⟩, i3⟩ := ih (s := s.withShifter { sampleBit d s.shifter with sout := o }) hs hl' hm'
    refine ⟨?_, ⟨o', ?_⟩, i3⟩
    · rw [i1]
      exact congrArg (List.cons (driveLevel s.shifter)) (drivenBits_congr (by rfl) (by rfl) _)
    · rw [i2]
      show s.withShifter _ = s.withShifter _
      congr 1
      show { sampleBits ds { sampleBit d s.shifter with sout := o } with sout := o' } =
        { sampleBits ds (sampleBit d s.shifter) with sout := o' }
      obtain ⟨md, m, r, t, q⟩ := sampleBit d s.shifter
      simp only [sampleBits_eq ds m r]

/-- The last bit of a transfer: one transition, then the drive of the rising-only discipline. -/
theorem sendBit_last (d : Bool) {s : State} (hs : s.sync.synced = true) (hl : LineReady s)
    (hm : s.shifter.mask >>> 1 = 0#16) :
    sendBit d s =
      (driveLevel s.shifter,
        settle (transition (s.withShifter { sampleBit d s.shifter with sout := driveLevel s.shifter }))) := by
  rw [sendBit_eq d hl, sampleRising_last d (s := driveOut s) hs hm]
  rfl

/-! ## Bytes -/

/-- The level of bit `i` of a word. -/
theorem and_twoPow_ne_zero (x : Half) (i : Nat) (hi : i < 16) : (x &&& BitVec.twoPow 16 i != 0#16) = x.getLsbD i := by
  rw [BitVec.and_twoPow]
  cases x.getLsbD i
  · simp
  · have : BitVec.twoPow 16 i ≠ 0#16 := by
      intro h
      have := congrArg (fun v => BitVec.getLsbD v i) h
      simp [hi] at this
    simp [this]

/-- The bits of a byte that brings its transfer to the end: the first seven, then the last. -/
theorem sendBits_byte_last (b : Byte) {s : State} (hs : s.sync.synced = true) (hl : LineReady s)
    (hm : s.shifter.mask = 0x0080#16) :
    (sendBits (byteBits b) s).1 = drivenBits 8 s.shifter ∧
    (sendBits (byteBits b) s).2 =
      settle (transition (s.withShifter
        { s.shifter with rx := s.shifter.rx ||| zext16 b, mask := 0#16, sout := s.shifter.tx.getLsbD 0 })) := by
  obtain ⟨w1, ⟨o, w2⟩, w3⟩ := sendBits_within
    [b.getLsbD 7, b.getLsbD 6, b.getLsbD 5, b.getLsbD 4, b.getLsbD 3, b.getLsbD 2, b.getLsbD 1] hs hl 
    (by rw [hm]; exact fun h => absurd (congrArg BitVec.toNat h) (by simp))
  have split : byteBits b = [b.getLsbD 7, b.getLsbD 6, b.getLsbD 5, b.getLsbD 4, b.getLsbD 3, b.getLsbD 2, b.getLsbD 1] ++
      [b.getLsbD 0] := rfl
  have low := sampleBits_low b s.shifter hm
  rw [split] at low
  rw [split, sendBits_append, w1]
  generalize hds : [b.getLsbD 7, b.getLsbD 6, b.getLsbD 5, b.getLsbD 4, b.getLsbD 3, b.getLsbD 2, b.getLsbD 1] = ds at *
  have hlen : ds.length = 7 := by rw [← hds]; rfl
  have hsync : (sendBits ds s).2.sync.synced = true := by rw [w2]; exact hs
  have hmask : (sendBits ds s).2.shifter.mask = 0x0001#16 := by
    rw [w2]
    show (sampleBits ds s.shifter).mask = _
    rw [sampleBits_mask, hlen, hm]
    rfl
  have last := sendBit_last (b.getLsbD 0) hsync w3 (by rw [hmask]; rfl)
  have htx : (sendBits ds s).2.shifter.tx = s.shifter.tx := by
    rw [w2]
    exact sampleBits_tx ds s.shifter
  have hlevel : driveLevel (sendBits ds s).2.shifter = s.shifter.tx.getLsbD 0 := by
    unfold driveLevel
    rw [htx, hmask]
    exact and_twoPow_ne_zero _ 0 (by decide)
  simp only [sendBits, last, hlen]
  constructor
  · show drivenBits 7 s.shifter ++ [_] = _
    simp only [drivenBits, driveLevel, htx, hmask, hm, List.cons_append, List.nil_append]
    rfl
  · rw [hlevel, w2]
    show settle (transition (s.withShifter _)) = settle (transition (s.withShifter _))
    congr 3
    have e : sampleBits (ds ++ [b.getLsbD 0]) s.shifter = sampleBit (b.getLsbD 0) (sampleBits ds s.shifter) := by
      simp [sampleBits]
    rw [e] at low
    have := congrArg (fun h : Shifter => { h with sout := s.shifter.tx.getLsbD 0 }) low
    exact this

/-- The bits of a byte that fills the high half of a word. -/
theorem sendBits_byte_first (b : Byte) {s : State} (hs : s.sync.synced = true) (hl : LineReady s)
    (hm : s.shifter.mask = 0x8000#16) :
    (sendBits (byteBits b) s).1 = drivenBits 8 s.shifter ∧
    (∃ o, (sendBits (byteBits b) s).2 =
      s.withShifter { s.shifter with rx := s.shifter.rx ||| (b ++ 0#8), mask := 0x0080#16, sout := o }) ∧
    LineReady (sendBits (byteBits b) s).2 := by
  obtain ⟨w1, ⟨o, w2⟩, w3⟩ := sendBits_within (byteBits b) hs hl
    (by rw [hm]; exact fun h => absurd (congrArg BitVec.toNat h) (by simp [byteBits]))
  refine ⟨w1, ⟨o, ?_⟩, w3⟩
  rw [w2, sampleBits_high b _ hm]

/-- A byte is read back from its own bits (20_memory.md R81). -/
theorem bitsByte_byteBits (b : Byte) : bitsByte (byteBits b) = b := by
  revert b
  decide

/-- Eight levels driven from the top of a word are the bits of its high byte. -/
theorem drivenBits_high {h : Shifter} (hm : h.mask = 0x8000#16) : drivenBits 8 h = byteBits (hiByte h.tx) := by
  obtain ⟨md, m, r, t, o⟩ := h
  obtain rfl : m = 0x8000#16 := hm
  have e := and_twoPow_ne_zero t
  have e15 := e 15 (by decide); have e14 := e 14 (by decide); have e13 := e 13 (by decide); have e12 := e 12 (by decide)
  have e11 := e 11 (by decide); have e10 := e 10 (by decide); have e9 := e 9 (by decide); have e8 := e 8 (by decide)
  simp only [drivenBits, driveLevel, byteBits, hiByte, BitVec.getLsbD_extractLsb']
  simpa using ⟨e15, e14, e13, e12, e11, e10, e9, e8⟩

/-- Eight levels driven from the middle of a word are the bits of its low byte. -/
theorem drivenBits_low {h : Shifter} (hm : h.mask = 0x0080#16) : drivenBits 8 h = byteBits (loByte h.tx) := by
  obtain ⟨md, m, r, t, o⟩ := h
  obtain rfl : m = 0x0080#16 := hm
  have e := and_twoPow_ne_zero t
  have e7 := e 7 (by decide); have e6 := e 6 (by decide); have e5 := e 5 (by decide); have e4 := e 4 (by decide)
  have e3 := e 3 (by decide); have e2 := e 2 (by decide); have e1 := e 1 (by decide); have e0 := e 0 (by decide)
  simp only [drivenBits, driveLevel, byteBits, loByte, BitVec.getLsbD_extractLsb']
  simpa using ⟨e7, e6, e5, e4, e3, e2, e1, e0⟩

/-- A byte transfer from its first bit: the master reads the low byte of `tx`, and one transition runs on the register
holding the byte sent. -/
theorem sendByte_transfer (b : Byte) {s : State} (hs : s.sync.synced = true) (hl : LineReady s)
    (hm : s.shifter.mask = 0x0080#16) :
    sendByte b s = (loByte s.shifter.tx, settle (transition
      (s.withShifter
        { s.shifter with rx := s.shifter.rx ||| zext16 b, mask := 0#16, sout := s.shifter.tx.getLsbD 0 }))) := by
  obtain ⟨h1, h2⟩ := sendBits_byte_last b hs hl hm
  rw [sendByte]
  simp only [h1, h2, drivenBits_low hm, bitsByte_byteBits]

/-- A word transfer from its first bit: the master reads the two bytes of `tx`, the high one first, and one transition runs
on the register holding the two bytes sent, the first in the high half (40_bit_shifter.md R138). -/
theorem sendBytes_transfer (b c : Byte) {s : State} (hs : s.sync.synced = true) (hl : LineReady s)
    (hm : s.shifter.mask = 0x8000#16) (hr : s.shifter.rx = 0#16) :
    sendBytes [b, c] s = ([hiByte s.shifter.tx, loByte s.shifter.tx], settle (transition
      (s.withShifter { s.shifter with rx := b ++ c, mask := 0#16, sout := s.shifter.tx.getLsbD 0 }))) := by
  obtain ⟨h1, ⟨o, h2⟩, h3⟩ := sendBits_byte_first b hs hl hm
  have e : sendByte b s = (hiByte s.shifter.tx, (sendBits (byteBits b) s).2) := by
    rw [sendByte]
    simp only [h1, drivenBits_high hm, bitsByte_byteBits]
  have k := sendByte_transfer c (s := (sendBits (byteBits b) s).2) (by rw [h2]; exact hs) h3 (by rw [h2]; rfl)
  have join : ∀ b c : Byte, 0#16 ||| (b ++ 0#8) ||| zext16 c = b ++ c := by
    intro b c
    apply BitVec.eq_of_getLsbD_eq
    intro i hi
    simp only [zext16, BitVec.zero_or, BitVec.getLsbD_or, BitVec.getLsbD_append, BitVec.getLsbD_setWidth]
    by_cases h : i < 8
    · simp [h, hi]
    · simp [h, hi, BitVec.getLsbD_of_ge c i (by omega)]
  simp only [sendBytes, e, k]
  rw [h2]
  have hx : s.shifter.rx ||| (b ++ 0#8) ||| zext16 c = b ++ c := by rw [hr, join]
  show _ = ([hiByte s.shifter.tx, loByte s.shifter.tx], settle (transition (s.withShifter _)))
  rw [← hx]
  rfl

/-! ## The preamble -/

/-- The window after the bits (41_preamble_sync.md R150). -/
def scanBits (ds : List Bool) (w : Half) : Half := ds.foldl (fun w d => shiftWindow d w) w

/-- No prefix of the bits completes the sync word. -/
def noMatch : List Bool → Half → Bool
  | [], _ => true
  | d :: ds, w => shiftWindow d w != magic && noMatch ds (shiftWindow d w)

/-- While unsynchronised the line is low and a bit slot feeds the window. -/
theorem sendBit_unsynced (d : Bool) {s : State} (hs : s.sync.synced = false) (hm : s.shifter.mask = 0#16)
    (ho : s.shifter.sout = false) : sendBit d s = (false, settle (syncStep d s)) := by
  have hdrive : driveLevel s.shifter = false := by simp [driveLevel, hm]
  have hl : LineReady s := fun _ => by rw [ho, hdrive]
  have hd : driveOut s = s := by
    unfold driveOut
    rw [hdrive, ← ho]
    rfl
  rw [sendBit_eq d hl, hd, sampleRising_unsynced d hs, hdrive]

/-- Bits that do not complete the sync word only move the window, and the master reads zeros. -/
theorem sendBits_scan (ds : List Bool) {s : State} (hs : s.sync.synced = false) (hm : s.shifter.mask = 0#16)
    (ho : s.shifter.sout = false) (hn : noMatch ds s.sync.window = true) :
    sendBits ds s =
      (List.replicate ds.length false, s.withSync { window := scanBits ds s.sync.window, synced := false }) := by
  induction ds generalizing s with
  | nil =>
    rw [sendBits, ← hs]
    rfl
  | cons d ds ih =>
    simp only [noMatch, Bool.and_eq_true, bne_iff_ne, ne_eq] at hn
    have hstep : syncStep d s = s.withSync { s.sync with window := shiftWindow d s.sync.window } := by
      simp [syncStep, hn.1]
    have hsettle : settle (syncStep d s) = s.withSync { s.sync with window := shiftWindow d s.sync.window } := by
      rw [hstep]
      unfold settle
      split
      · unfold driveOut
        have hdrive : driveLevel s.shifter = s.shifter.sout := by simp [driveLevel, hm, ho]
        show State.withShifter { s.shifter with sout := driveLevel s.shifter } _ = _
        rw [hdrive]
        rfl
      · rfl
    have hb := sendBit_unsynced d hs hm ho
    rw [hsettle] at hb
    have hi := ih (s := s.withSync { s.sync with window := shiftWindow d s.sync.window }) hs hm ho hn.2
    simp only [sendBits, hb, hi, List.length_cons, List.replicate_succ]
    rfl

/-- The state the sync word leaves (41_preamble_sync.md R151). -/
theorem sendBytes_magic {s : State} (h : AwaitingPreamble s) :
    sendBytes [0x88#8, 0x33#8] s = ([0x00#8, 0x00#8], syncMatch s) := by
  obtain ⟨hw, hmode, hm, ho, hp⟩ := h
  have hs : s.sync.synced = false := by rw [hw]
  have hwin : s.sync.window = 0#16 := by rw [hw]
  have first := sendBits_scan (byteBits 0x88#8) hs hm ho (by rw [hwin]; decide)
  have scan1 : scanBits (byteBits 0x88#8) 0#16 = 0x0088#16 := by decide
  rw [hwin, scan1] at first
  have second := sendBits_scan [false, false, true, true, false, false, true]
    (s := s.withSync { window := 0x0088#16, synced := false }) rfl hm ho (by rw [State.withSync_sync]; decide)
  have scan2 : scanBits [false, false, true, true, false, false, true] 0x0088#16 = 0x4419#16 := by decide
  simp only [State.withSync_sync, scan2] at second
  have last := sendBit_unsynced true (s := s.withSync { window := 0x4419#16, synced := false }) rfl hm ho
  have hmatch : settle (syncStep true (s.withSync { window := 0x4419#16, synced := false })) = syncMatch s := by
    have e : syncStep true (s.withSync { window := 0x4419#16, synced := false }) = syncMatch s := by
      have : shiftWindow true 0x4419#16 = magic := by decide
      simp only [syncStep, State.withSync_sync, this, if_true]
      rfl
    rw [e]
    refine settle_of_quiet ⟨rfl, ?_⟩
    exact ho
  rw [hmatch] at last
  have bits2 : byteBits 0x33#8 = [false, false, true, true, false, false, true] ++ [true] := by decide
  have whole : sendBits (byteBits 0x33#8) (s.withSync { window := 0x0088#16, synced := false }) =
      (List.replicate 8 false, syncMatch s) := by
    rw [bits2, sendBits_append, second]
    show (_ ++ (sendBits [true] (s.withSync { window := 0x4419#16, synced := false })).1,
      (sendBits [true] (s.withSync { window := 0x4419#16, synced := false })).2) = _
    simp only [sendBits, last]
    rfl
  simp only [sendBytes, sendByte, first, whole]
  have z : bitsByte (List.replicate 8 false) = 0#8 := by decide
  have n : (byteBits 0x88#8).length = 8 := rfl
  rw [n, z]

end Sys2Proof.Machine
end

