-- ==== Sys2Proof/Laws/Frames.lean ====
section
/-! SUPPORT. A frame piece by piece (spec/30_encoding.md R100): the transfers in which the slave has nothing to send, the header
from the awaiting-preamble state, and the Dummy. -/

namespace Sys2Proof.Machine

/-! ## Transfers in which the slave has nothing to send -/

/-- After every transition but the one into Dummy there is nothing to send (42_packet_fsm.md R160). -/
theorem quiet_transition {s : State} (ho : s.shifter.sout = false) (hp : s.packet.pstate ≠ .checksum) :
    Quiet (transition s) := by
  have arm : ∀ (p : PState) (m : Mode) (t : State), t.shifter.sout = false → Quiet (armTransfer p m 0#16 t) := by
    intro p m t h
    cases m <;> exact ⟨by simp [armTransfer, beginTransfer, swap16, loByte, hiByte], by simp [armTransfer, beginTransfer, h]⟩
  have store : ∀ b (t : State), (storePayload b t).shifter = t.shifter := by
    intro b t
    obtain ⟨_, h⟩ | ⟨_, h⟩ | ⟨_, _, h⟩ := storePayload_cases b t <;> rw [h] <;> rfl
  unfold transition
  dsimp only
  split
  · exact arm _ _ _ ho
  · unfold header2Done
    dsimp only
    split
    · split <;> exact arm _ _ _ ho
    all_goals exact arm _ _ _ ho
  · unfold payloadDone
    dsimp only
    split <;> exact arm _ _ _ (by simp [store, ho])
  · exact absurd (by assumption) hp
  · unfold dummyDone
    dsimp only
    split <;> exact ⟨rfl, rfl⟩

/-- A byte transfer with nothing to send. -/
theorem sendByte_quiet (b : Byte) {s : State} (hs : s.sync.synced = true) (hq : Quiet s)
    (hm : s.shifter.mask = 0x0080#16) (hr : s.shifter.rx = 0#16) (hp : s.packet.pstate ≠ .checksum) :
    sendByte b s =
      (0x00#8, transition (s.withShifter { s.shifter with rx := zext16 b, mask := 0#16 })) := by
  rw [sendByte_transfer b hs hq.lineReady hm, hr, hq.1]
  have ho : (0#16 : Half).getLsbD 0 = s.shifter.sout := by rw [hq.2]; rfl
  rw [BitVec.zero_or, ho, settle_of_quiet (quiet_transition (by exact hq.2) (by exact hp))]
  rfl

/-- A word transfer with nothing to send, but for the one that ends Checksum. -/
theorem sendBytes_quiet (b c : Byte) {s : State} (hs : s.sync.synced = true) (hq : Quiet s)
    (hm : s.shifter.mask = 0x8000#16) (hr : s.shifter.rx = 0#16) (hp : s.packet.pstate ≠ .checksum) :
    sendBytes [b, c] s =
      ([0x00#8, 0x00#8], transition (s.withShifter { s.shifter with rx := b ++ c, mask := 0#16 })) := by
  rw [sendBytes_transfer b c hs hq.lineReady hm hr, hq.1]
  have ho : (0#16 : Half).getLsbD 0 = s.shifter.sout := by rw [hq.2]; rfl
  rw [ho, settle_of_quiet (quiet_transition (by exact hq.2) (by exact hp))]
  rfl

/-! ## The header -/

/-- Where the sync word, command and compression leave the engine (41_preamble_sync.md R151, 42_packet_fsm.md R161). -/
def afterHeader1 (c comp : Byte) (s : State) : State :=
  { s with
    sync := { window := 0#16, synced := true },
    packet := { s.packet with
      pstate := .header2, command := c, compression := comp, computedChecksum := 0#16, dataIndex := 0#16 },
    shifter := { mode := .wordLE, mask := 0x8000#16, rx := 0#16, tx := 0#16, sout := false },
    timer := s.config.timeoutMs }

theorem hiByte_append (b c : Byte) : hiByte (b ++ c) = b := by
  apply BitVec.eq_of_getLsbD_eq
  intro i hi
  simp only [hiByte, BitVec.getLsbD_extractLsb', BitVec.getLsbD_append, hi, decide_true, Bool.true_and]
  simp

theorem loByte_append (b c : Byte) : loByte (b ++ c) = c := by
  apply BitVec.eq_of_getLsbD_eq
  intro i hi
  simp only [loByte, BitVec.getLsbD_extractLsb', hi, decide_true, Bool.true_and, Nat.zero_add, BitVec.getLsbD_append,
    if_true]

theorem swap16_append (b c : Byte) : swap16 (b ++ c) = c ++ b := by rw [swap16, hiByte_append, loByte_append]

/-- The first four bytes of a frame. -/
theorem sendBytes_header1 (c comp : Byte) {s : State} (h : AwaitingPreamble s) :
    sendBytes [0x88#8, 0x33#8, c, comp] s = ([0x00#8, 0x00#8, 0x00#8, 0x00#8], afterHeader1 c comp s) := by
  have ho : s.shifter.sout = false := h.2.2.2.1
  rw [show [0x88#8, 0x33#8, c, comp] = [0x88#8, 0x33#8] ++ [c, comp] from rfl, sendBytes_append, sendBytes_magic h]
  have q : Quiet (syncMatch s) := ⟨rfl, ho⟩
  have w := sendBytes_quiet c comp (s := syncMatch s) rfl q rfl rfl (by simp [syncMatch, armTransfer])
  dsimp only
  rw [w]
  refine congrArg (Prod.mk _) ?_
  have e1 : hiByte (rxWord { mode := .wordBE, mask := 0#16, rx := c ++ comp, tx := 0#16, sout := s.shifter.sout }) = c :=
    hiByte_append c comp
  have e2 : loByte (rxWord { mode := .wordBE, mask := 0#16, rx := c ++ comp, tx := 0#16, sout := s.shifter.sout }) = comp :=
    loByte_append c comp
  show armTransfer .header2 .wordLE 0#16 _ = _
  unfold afterHeader1
  simp only [armTransfer, State.withPacket, State.withShifter, State.withTimer, syncMatch, beginTransfer, startMask,
    State.withSync] at e1 e2 ⊢
  rw [e1, e2, ho]
  rfl

/-- The six bytes up to the payload: Header2 is done on the little-endian length. -/
theorem sendBytes_header (c comp lo hi : Byte) {s : State} (h : AwaitingPreamble s) :
    sendBytes [0x88#8, 0x33#8, c, comp, lo, hi] s =
      (List.replicate 6 0x00#8, header2Done ((afterHeader1 c comp s).withShifter
        { mode := .wordLE, mask := 0#16, rx := lo ++ hi, tx := 0#16, sout := false })) := by
  rw [show [0x88#8, 0x33#8, c, comp, lo, hi] = [0x88#8, 0x33#8, c, comp] ++ [lo, hi] from rfl, sendBytes_append,
    sendBytes_header1 c comp h]
  dsimp only
  rw [sendBytes_quiet lo hi (s := afterHeader1 c comp s) rfl ⟨rfl, rfl⟩ rfl rfl (by simp [afterHeader1])]
  rfl

end Sys2Proof.Machine
end

