-- ==== Sys2Proof/Laws/PerInstr.lean ====
section
/-! SUPPORT. Facts stated once per instruction: the code byte of its encoding matches its own row of the opcode table
(spec/30_encoding.md R110, R120). -/

namespace Sys2Proof.Laws

/-- A full mask keeps the byte. -/
theorem wholeByte (c : Byte) : c &&& 0xFF#8 = c := by
  revert c
  decide

/-- The mask of the two status rows keeps the five operation bits and drops the bit number (R120). -/
theorem statusCode (k : BitVec 3) (op : BitVec 5) : (op ++ k) &&& 0xF8#8 = op ++ 0#3 := by
  revert k op
  decide

end Sys2Proof.Laws

namespace Sys2Proof.Laws.TableRow

/-- The code byte of the encoded instruction, under the row's mask, is the row's match. -/
def Statement (i : Instr) : Prop := i.wf = true → codeByte (encode i) &&& (tableRow i).1 = (tableRow i).2

theorem cmdInit (f : Frame) : Statement (.cmdInit f) := fun _ => wholeByte 0x01#8
theorem cmdPrint (f : Frame) : Statement (.cmdPrint f) := fun _ => wholeByte 0x02#8
theorem cmdData (f : Frame) : Statement (.cmdData f) := fun _ => wholeByte 0x04#8
theorem cmdBreak (f : Frame) : Statement (.cmdBreak f) := fun _ => wholeByte 0x08#8
theorem cmdInquiry (f : Frame) : Statement (.cmdInquiry f) := fun _ => wholeByte 0x0F#8
theorem cmdUnknown (c : Byte) (f : Frame) : Statement (.cmdUnknown c f) := fun _ => BitVec.and_zero
theorem initEngine (cap : Nat) : Statement (.initEngine cap) := fun _ => wholeByte 0x00#8
theorem reset : Statement (.reset) := fun _ => rfl
theorem tick (e : Millis) : Statement (.tick e) := fun _ => wholeByte 0x02#8
theorem onEdge (c d : Bool) : Statement (.onEdge c d) := fun _ => wholeByte 0x03#8
theorem onRising (d : Bool) : Statement (.onRising d) := fun _ => wholeByte 0x04#8
theorem available : Statement (.available) := fun _ => rfl
theorem takeOne : Statement (.takeOne) := fun _ => rfl
theorem peek (k : Nat) : Statement (.peek k) := fun _ => wholeByte 0x07#8
theorem consumeInit : Statement (.consumeInit) := fun _ => rfl
theorem consumeData : Statement (.consumeData) := fun _ => rfl
theorem consumePrint : Statement (.consumePrint) := fun _ => rfl
theorem consumeBreak : Statement (.consumeBreak) := fun _ => rfl
theorem consumeInquiry : Statement (.consumeInquiry) := fun _ => rfl
theorem consumeDataEnd : Statement (.consumeDataEnd) := fun _ => rfl
theorem consumePacketCompleted : Statement (.consumePacketCompleted) := fun _ => rfl
theorem piSheets : Statement (.piSheets) := fun _ => rfl
theorem piLfBefore : Statement (.piLfBefore) := fun _ => rfl
theorem piLfAfter : Statement (.piLfAfter) := fun _ => rfl
theorem piPalette : Statement (.piPalette) := fun _ => rfl
theorem piDensity : Statement (.piDensity) := fun _ => rfl
theorem statusGetBit (k : BitVec 3) : Statement (.statusGetBit k) := fun _ => statusCode k 0b00100#5
theorem statusSetBit (k : BitVec 3) (v : Bool) : Statement (.statusSetBit k v) := fun _ => statusCode k 0b00101#5
theorem statusWord : Statement (.statusWord) := fun _ => rfl

end Sys2Proof.Laws.TableRow
end

