-- ==== Sys2Proof/Tests/Slice0.lean ====
section
/-! SUPPORT. The model's own tests. Expected results are those of spec/95_test_vectors.md, worked by hand there, or the
encodings of spec/30_encoding.md; and one witness per statement that has hypotheses. -/

set_option Elab.async false

open Sys2Proof
open Sys2Proof.Machine

namespace Sys2Proof.Tests

/-! ## Well-formedness: each check refuses an ill-formed term -/

/-- A payload of 65536 bytes does not fit the LENGTH field. -/
def tooLong : Frame :=
  { compression := 0#8, payload := List.replicate 65536 0#8, checksum := 0#16, dummy := 0#16 }

theorem tooLong_length : tooLong.payload.length = 65536 := List.length_replicate

theorem tooLong_not_wf : tooLong.wf = false := by
  rw [Frame.wf, tooLong_length]
  rfl

theorem test_wf_refuses_long_init : (Instr.cmdInit tooLong).wf = false := tooLong_not_wf
theorem test_wf_refuses_long_print : (Instr.cmdPrint tooLong).wf = false := tooLong_not_wf
theorem test_wf_refuses_long_data : (Instr.cmdData tooLong).wf = false := tooLong_not_wf
theorem test_wf_refuses_long_break : (Instr.cmdBreak tooLong).wf = false := tooLong_not_wf
theorem test_wf_refuses_long_inquiry : (Instr.cmdInquiry tooLong).wf = false := tooLong_not_wf
theorem test_wf_refuses_long_unknown : (Instr.cmdUnknown 0x10#8 tooLong).wf = false := by
  rw [Instr.wf, tooLong_not_wf]
  rfl

/-- "Unknown" with one of the five known command bytes is ill-formed. -/
theorem test_wf_refuses_known_as_unknown :
    (Instr.cmdUnknown 0x01#8 (pkt 0x01#8 0#8 [])).wf = false ∧ (Instr.cmdUnknown 0x02#8 (pkt 0x02#8 0#8 [])).wf = false ∧
    (Instr.cmdUnknown 0x04#8 (pkt 0x04#8 0#8 [])).wf = false ∧ (Instr.cmdUnknown 0x08#8 (pkt 0x08#8 0#8 [])).wf = false ∧
    (Instr.cmdUnknown 0x0F#8 (pkt 0x0F#8 0#8 [])).wf = false ∧ (Instr.cmdUnknown 0x10#8 (pkt 0x10#8 0#8 [])).wf = true := by
  decide

/-! ## Decoding: words written out from 30_encoding.md R100, R110, R120 -/

/-- The frame of a header and a payload, with checksum and dummy bytes as given. -/
def frame (payload : List Byte) (checksum : Half) : Frame :=
  { compression := 0x00#8, payload := payload, checksum := checksum, dummy := 0x0000#16 }

/-- A code with every operand line high: lines an operation does not name are not read. -/
def lines (code : Byte) : Input :=
  .request { code := code, natural := 9, millis := 7#32, clockLevel := true, bit := true }

theorem test_decode_init :
    decode (.wire [0x88#8, 0x33#8, 0x01#8, 0x00#8, 0x00#8, 0x00#8, 0x01#8, 0x00#8, 0x00#8, 0x00#8]) =
      .ok (.cmdInit (frame [] 0x0001#16)) := rfl
theorem test_decode_print :
    decode (.wire [0x88#8, 0x33#8, 0x02#8, 0x00#8, 0x04#8, 0x00#8, 0x01#8, 0x03#8, 0xE4#8, 0x40#8, 0x2E#8, 0x01#8,
      0x00#8, 0x00#8]) = .ok (.cmdPrint (frame [0x01#8, 0x03#8, 0xE4#8, 0x40#8] 0x012E#16)) := rfl
theorem test_decode_data :
    decode (.wire [0x88#8, 0x33#8, 0x04#8, 0x00#8, 0x03#8, 0x00#8, 0x11#8, 0x22#8, 0x33#8, 0x6D#8, 0x00#8, 0x00#8,
      0x00#8]) = .ok (.cmdData (frame [0x11#8, 0x22#8, 0x33#8] 0x006D#16)) := rfl
theorem test_decode_break :
    decode (.wire [0x88#8, 0x33#8, 0x08#8, 0x00#8, 0x00#8, 0x00#8, 0x08#8, 0x00#8, 0x00#8, 0x00#8]) =
      .ok (.cmdBreak (frame [] 0x0008#16)) := rfl
theorem test_decode_inquiry :
    decode (.wire [0x88#8, 0x33#8, 0x0F#8, 0x00#8, 0x00#8, 0x00#8, 0x0F#8, 0x00#8, 0x00#8, 0x00#8]) =
      .ok (.cmdInquiry (frame [] 0x000F#16)) := rfl
theorem test_decode_unknown :
    decode (.wire [0x88#8, 0x33#8, 0x10#8, 0x00#8, 0x02#8, 0x00#8, 0xAB#8, 0xCD#8, 0x8A#8, 0x01#8, 0x00#8, 0x00#8]) =
      .ok (.cmdUnknown 0x10#8 (frame [0xAB#8, 0xCD#8] 0x018A#16)) := rfl

theorem test_decode_lifecycle_and_edges :
    decode (lines 0b00000000#8) = .ok (.initEngine 9) ∧ decode (lines 0b00000001#8) = .ok .reset ∧
    decode (lines 0b00000010#8) = .ok (.tick 7#32) ∧ decode (lines 0b00000011#8) = .ok (.onEdge true true) ∧
    decode (lines 0b00000100#8) = .ok (.onRising true) := ⟨rfl, rfl, rfl, rfl, rfl⟩
theorem test_decode_sink_and_latches :
    decode (lines 0b00000101#8) = .ok .available ∧ decode (lines 0b00000110#8) = .ok .takeOne ∧
    decode (lines 0b00000111#8) = .ok (.peek 9) ∧ decode (lines 0b00001000#8) = .ok .consumeInit ∧
    decode (lines 0b00001001#8) = .ok .consumeData ∧ decode (lines 0b00001010#8) = .ok .consumePrint ∧
    decode (lines 0b00001011#8) = .ok .consumeBreak ∧ decode (lines 0b00001100#8) = .ok .consumeInquiry ∧
    decode (lines 0b00001101#8) = .ok .consumeDataEnd ∧ decode (lines 0b00001110#8) = .ok .consumePacketCompleted :=
  ⟨rfl, rfl, rfl, rfl, rfl, rfl, rfl, rfl, rfl, rfl⟩
theorem test_decode_print_and_status :
    decode (lines 0b00010000#8) = .ok .piSheets ∧ decode (lines 0b00010001#8) = .ok .piLfBefore ∧
    decode (lines 0b00010010#8) = .ok .piLfAfter ∧ decode (lines 0b00010011#8) = .ok .piPalette ∧
    decode (lines 0b00010100#8) = .ok .piDensity ∧ decode (lines 0b00100110#8) = .ok (.statusGetBit 6#3) ∧
    decode (lines 0b00101011#8) = .ok (.statusSetBit 3#3 true) ∧ decode (lines 0b00110000#8) = .ok .statusWord :=
  ⟨rfl, rfl, rfl, rfl, rfl, rfl, rfl, rfl⟩
theorem test_decode_rejects :
    decode (lines 0x15#8) = .error (.reservedCode 0x15#8) ∧ decode (.wire [0x88#8, 0x34#8, 1#8, 0#8, 0#8, 0#8]) = .error .noSync ∧
    decode (.wire [0x88#8, 0x33#8, 0x01#8, 0x00#8, 0x00#8, 0x00#8, 0x00#8, 0x00#8]) = .error .lengthMismatch ∧
    decode (.wire [0x88#8]) = .error .shortFrame := ⟨rfl, rfl, rfl, rfl⟩
theorem test_decodeTableWord :
    decodeTableWord 8 0x30 = some .statusWord ∧ decodeTableWord 8 0x0F = some (.cmdInquiry (frame [] 0#16)) ∧
    decodeTableWord 8 0x31 = some (.cmdUnknown 0x31#8 (frame [] 0#16)) ∧ decodeTableWord 8 256 = none := ⟨rfl, rfl, rfl, rfl⟩

/-! ## One step each -/

/-- `P0` of 95_test_vectors.md. -/
def p0 : State := State.reset

/-- The next state of an instruction has the property. -/
def after (i : Instr) (s : State) (p : State → Bool) : Bool :=
  match exec i s with
  | .next t => p t
  | .fault _ => false
  | .refused _ => false

/-- The state an instruction leads to; where it does not go on, the state it starts from. -/
def run1 (i : Instr) (s : State) : State :=
  match exec i s with
  | .next t => t
  | .fault _ => s
  | .refused _ => s

/-- What the instruction returns. -/
def returns (i : Instr) (s : State) (r : Result) : Bool := after i s (fun t => t.result == r)

/-- The rising-only discipline. -/
def rising (s : State) : State := s.withConfig { s.config with risingOnlyIsr := true }

/-- Staging on. -/
def staging (s : State) : State := s.withConfig { s.config with stageOnChecksum := true }

/-- A transfer of packet state `p` that ends with the next rising edge, for a packet of command `c` with length `len`, at
index `idx`. -/
def lastBit (p : PState) (c : Byte) (len idx : Half) (rx : Half) : State :=
  let m : Mode := match p with
    | .header1 => .wordBE
    | .header2 => .wordLE
    | .payload => .byte
    | .checksum => .wordLE
    | .dummy => .wordBE
  { p0 with
    sync := { window := 0#16, synced := true },
    shifter := { mode := m, mask := 0x0001#16, rx := rx, tx := if p = .dummy then 0x8100#16 else 0#16, sout := false },
    packet := { pstate := p, command := c, compression := 0#8, dataLength := len, dataIndex := idx,
                receivedChecksum := 0#16, computedChecksum := 0#16 } }

/-- Eight bytes of zero, then the Dummy's two. -/
def backOf (n : Nat) (st : Byte) : Result := .back (List.replicate n 0x00#8 ++ [0x81#8, st])

/-- Scenario 1 (c): F_INIT from P0. -/
theorem test_init :
    after (.cmdInit (pkt 0x01#8 0#8 [])) p0 (fun t => t.result == backOf 8 0x00#8 && t.seq.dataPacketsRemaining == 6#8 &&
      t.latches.initReceived && t.latches.packetCompleted && !t.sync.synced && t.timer == 5000#32) = true := by
  decide +kernel
/-- V-FS3: INIT with L = 1. -/
theorem test_init_long :
    after (.cmdInit (pkt 0x01#8 0#8 [0x55#8])) p0 (fun t =>
      t.result == .back (List.replicate 8 0#8 ++ [0x81#8, 0x01#8, 0x00#8]) && t.seq.status == 0x01#8) = true := by
  decide +kernel
/-- P5: PRINT with L = 5. -/
theorem test_print_misframed :
    after (.cmdPrint (pkt 0x02#8 0#8 [0x01#8, 0x03#8, 0xE4#8, 0x40#8, 0x7F#8])) p0 (fun t =>
      t.result == .back (List.replicate 12 0#8 ++ [0x81#8, 0x01#8, 0x00#8]) && t.seq.busyRemaining == 3#8 &&
      t.printInstruction == { byte0 := 0x01#8, byte1 := 0x03#8, byte2 := 0xE4#8, byte3 := 0x40#8 }) = true := by
  decide +kernel
/-- V-FS5: a short PRINT keeps bytes 2 and 3. -/
theorem test_print_short :
    after (.cmdPrint (pkt 0x02#8 0#8 [0x09#8, 0x21#8]))
      (p0.withPrintInstruction { byte0 := 0x01#8, byte1 := 0x03#8, byte2 := 0xE4#8, byte3 := 0x40#8 }) (fun t =>
      t.result == backOf 10 0x00#8 &&
      t.printInstruction == { byte0 := 0x09#8, byte1 := 0x21#8, byte2 := 0xE4#8, byte3 := 0x40#8 }) = true := by
  decide +kernel
/-- Scenario 8, staging on and `use_checksum` off: a wrong checksum discards the staged bytes and DATA still counts. -/
theorem test_data_wrong_checksum :
    after (.cmdData (frame [0x11#8, 0x22#8] 0x0037#16))
      ((staging p0).withConfig { (staging p0).config with useChecksum := false }) (fun t =>
      t.result == backOf 10 0x00#8 && t.fifo.committed == [] && t.fifo.staged == [] && t.seq.status == 0x08#8) = true := by
  decide +kernel
/-- V-FI1: overflow drops the newest byte. -/
theorem test_data_overflow :
    after (.cmdData (pkt 0x04#8 0#8 [0x01#8, 0x02#8, 0x03#8])) (State.postInit Config.default 2) (fun t =>
      t.fifo.committed == [0x01#8, 0x02#8] && t.seq.status == 0x08#8 && t.seq.dataPacketsRemaining == 0#8) = true := by
  decide +kernel
/-- V-CM4: BREAK clears every status bit, then counts down; then everything but latches and print instruction is reset. -/
theorem test_break :
    after (.cmdBreak (pkt 0x08#8 0#8 []))
      ((p0.withSeq { status := 0x08#8, dataPacketsRemaining := 5#8, untransmittedRemaining := 1#8, busyRemaining := 3#8 }).withFifo
        { cap := 4096, committed := [0x11#8], staged := [] }) (fun t =>
      t.result == backOf 8 0x06#8 && t.seq == Sequencer.zero && t.fifo.committed == [] && t.resetReport &&
      t.latches.breakReceived) = true := by
  decide +kernel
/-- V-CM6: INQUIRY at the untransmitted zero crossing. -/
theorem test_inquiry_untransmitted :
    after (.cmdInquiry (pkt 0x0F#8 0#8 []))
      (p0.withSeq { status := 0x08#8, dataPacketsRemaining := 5#8, untransmittedRemaining := 1#8, busyRemaining := 3#8 })
      (fun t => t.result == backOf 8 0x06#8 && t.seq.status == 0x06#8 && t.seq.busyRemaining == 3#8) = true := by
  decide +kernel
/-- V-CM7: INQUIRY at the busy zero crossing, under the rising-only discipline. -/
theorem test_inquiry_busy :
    after (.cmdInquiry (pkt 0x0F#8 0#8 []))
      (rising (p0.withSeq { status := 0x06#8, dataPacketsRemaining := 5#8, untransmittedRemaining := 0#8, busyRemaining := 1#8 }))
      (fun t => t.result == backOf 8 0x04#8 && t.seq.status == 0x00#8) = true := by
  decide +kernel
/-- V-FS2: an unknown command with L = 2. -/
theorem test_unknown :
    after (.cmdUnknown 0x10#8 (frame [0xAB#8, 0xCD#8] 0x018A#16)) p0 (fun t =>
      t.result == .back (List.replicate 8 0#8 ++ [0x81#8, 0x01#8, 0x00#8, 0x00#8]) &&
      t.packet.receivedChecksum == 0xCDAB#16 && t.packet.computedChecksum == 0x0012#16 &&
      t.latches == { Latches.zero with packetCompleted := true }) = true := by
  decide +kernel
/-- V-RS3: a second INIT_ENGINE(8). -/
theorem test_initEngine :
    after (.initEngine 8) (lastBit .payload 0x04#8 2#16 1#16 0#16) (fun t => t == State.postInit Config.default 8) = true := by
  decide +kernel
/-- V-RS1. -/
theorem test_reset : after .reset (lastBit .dummy 0x02#8 4#16 4#16 0#16) (fun t => t == p0) = true := by decide +kernel
/-- V-TK2: a timer of 5000 and TICK(6000). -/
theorem test_tick :
    after (.tick 6000#32) ((p0.withTimer 5000#32).withLatches { Latches.zero with initReceived := true }) (fun t =>
      t.result == .bool true && t.timer == 0#32 && t.latches.initReceived) = true := by decide +kernel
/-- V-TK1: a disarmed timer. -/
theorem test_tick_disarmed : after (.tick 100000#32) p0 (fun t => t.result == .bool false && t.timer == 0#32) = true := by
  decide +kernel
/-- V-SH6: a rising edge in Byte mode. -/
theorem test_onEdge_samples :
    after (.onEdge true true)
      ((lastBit .payload 0x04#8 2#16 1#16 0#16).withShifter
        { mode := .byte, mask := 0x0010#16, rx := 0x00A0#16, tx := 0#16, sout := false }) (fun t =>
      t.shifter.rx == 0x00B0#16 && t.shifter.mask == 0x0008#16) = true := by decide +kernel
/-- V-FS8: the edge that completes a payload byte. -/
theorem test_onEdge_payload :
    after (.onEdge true false)
      ((lastBit .payload 0x04#8 2#16 1#16 0x0022#16).withPacket
        { (lastBit .payload 0x04#8 2#16 1#16 0x0022#16).packet with computedChecksum := 0x0011#16 }) (fun t =>
      t.fifo.committed == [0x22#8] && t.packet.computedChecksum == 0x0033#16 && t.packet.dataIndex == 2#16 &&
      t.packet.pstate == .checksum) = true := by decide +kernel
/-- V-SH5: the edge that completes Checksum drives the first Dummy bit at once under rising-only. -/
theorem test_onRising :
    after (.onRising false) (rising (lastBit .checksum 0x01#8 0#16 0#16 0x0100#16)) (fun t =>
      t.result == .level true && t.shifter.tx == 0x8100#16 && t.shifter.mask == 0x8000#16) = true := by decide +kernel
/-- V-HO1: staged bytes are not counted. -/
theorem test_available :
    returns .available (p0.withFifo { cap := 4, committed := [0xAA#8, 0xAA#8], staged := [0xBB#8] }) (.count 2) = true := by
  decide +kernel
/-- Program P1's last take clears bit 3. -/
theorem test_takeOne :
    after .takeOne ((p0.withFifo { cap := 4, committed := [0x33#8], staged := [] }).withSeq
      { Sequencer.zero with status := 0x0C#8 }) (fun t =>
      t.result == .byte 0x33#8 && t.fifo.committed == [] && t.seq.status == 0x04#8) = true := by decide +kernel
/-- V-HO3: a take on an empty FIFO clears nothing. -/
theorem test_takeOne_empty :
    after .takeOne (p0.withSeq { Sequencer.zero with status := 0x08#8 }) (fun t => t.seq.status == 0x08#8) = true := by
  decide +kernel
/-- V-HO2. -/
theorem test_peek :
    returns (.peek 1) (p0.withFifo { cap := 4, committed := [0x01#8, 0x02#8], staged := [] }) (.byte 0x02#8) = true := by
  decide +kernel

/-- Every latch set. -/
def allLatches : Latches :=
  { initReceived := true, dataPacketReceived := true, dataEndReceived := true, printInstructionReceived := true,
    breakReceived := true, inquiryReceived := true, packetCompleted := true }

/-- V-HO4: each consume returns its own latch, which is then false, the others not. -/
theorem test_consume :
    after .consumeInit (p0.withLatches allLatches) (fun t => t.latches == { allLatches with initReceived := false }) = true ∧
    after .consumeData (p0.withLatches allLatches)
      (fun t => t.latches == { allLatches with dataPacketReceived := false }) = true ∧
    after .consumePrint (p0.withLatches allLatches)
      (fun t => t.latches == { allLatches with printInstructionReceived := false }) = true ∧
    after .consumeBreak (p0.withLatches allLatches) (fun t => t.latches == { allLatches with breakReceived := false }) = true ∧
    after .consumeInquiry (p0.withLatches allLatches)
      (fun t => t.latches == { allLatches with inquiryReceived := false }) = true ∧
    after .consumeDataEnd (p0.withLatches allLatches)
      (fun t => t.latches == { allLatches with dataEndReceived := false }) = true ∧
    after .consumePacketCompleted (p0.withLatches allLatches)
      (fun t => t.latches == { allLatches with packetCompleted := false }) = true := by decide +kernel

/-- Program P4's print instruction, latched. -/
def printed : State :=
  (p0.withPrintInstruction { byte0 := 0x01#8, byte1 := 0x13#8, byte2 := 0xE4#8, byte3 := 0x40#8 }).withLatches
    { Latches.zero with printInstructionReceived := true }

theorem test_print_accessors :
    returns .piSheets printed (.byteOrNone (some 0x01#8)) = true ∧ returns .piLfBefore printed (.nibbleOrNone (some 0x1#4)) = true ∧
    returns .piLfAfter printed (.nibbleOrNone (some 0x3#4)) = true ∧
    returns .piPalette printed (.byteOrNone (some 0xE4#8)) = true ∧
    returns .piDensity printed (.byteOrNone (some 0x40#8)) = true := by decide +kernel
/-- V-HO6, V-HO9. -/
theorem test_status :
    after (.statusSetBit 5#3 true) p0 (fun t => t.seq.status == 0x20#8) = true ∧
    returns .statusWord (p0.withSeq { Sequencer.zero with status := 0x20#8 }) (.word 0x8120#16) = true ∧
    returns (.statusGetBit 1#3) (p0.withSeq { Sequencer.zero with status := 0x06#8 }) (.level true) = true := by
  decide +kernel

/-! ## Witnesses: states and operands that meet the hypotheses of each statement -/

/-- An instruction that goes on has a next state. -/
theorem next_of_after {i : Instr} {s : State} {p : State → Bool} (h : after i s p = true) :
    ∃ t, exec i s = .next t ∧ p t = true := by
  unfold after at h
  split at h
  · exact ⟨_, ‹_›, h⟩
  · cases h
  · cases h

/-- The same with pending inputs. -/
def withInput (x : Input) : State := { p0 with inputs := [x] }

/-- A state that breaks the control-point invariant: synchronised with no transfer. -/
def broken : State := p0.withSync { window := 0#16, synced := true }

/-- A DATA frame of three bytes, F_D3. -/
def fD3 : Frame := pkt 0x04#8 0#8 [0x11#8, 0x22#8, 0x33#8]

theorem witness_DecodeOfEncode :
    (Instr.cmdData fD3).wf = true ∧ (Instr.cmdUnknown 0xFF#8 (pkt 0xFF#8 0#8 [])).wf = true ∧
    (Instr.statusSetBit 7#3 true).wf = true := by decide
theorem witness_ReservedCodes :
    ReservedCode 0x0F#8 ∧ ReservedCode 0x15#8 ∧ ReservedCode 0x1F#8 ∧ ReservedCode 0x31#8 ∧ ReservedCode 0xFF#8 ∧
    ¬ ReservedCode 0x0E#8 ∧ ¬ ReservedCode 0x10#8 ∧ ¬ ReservedCode 0x14#8 ∧ ¬ ReservedCode 0x20#8 ∧ ¬ ReservedCode 0x30#8 ∧
    controlPoint (withInput (lines 0x15#8)) = true ∧ (withInput (lines 0x15#8)).inputs = [lines 0x15#8] := by decide
theorem witness_StepServes :
    controlPoint (withInput (lines 0x05#8)) = true ∧ (withInput (lines 0x05#8)).inputs = [lines 0x05#8] ∧
    decode (lines 0x05#8) = .ok .available := ⟨rfl, rfl, rfl⟩
theorem witness_StepWithoutInput : controlPoint p0 = true ∧ p0.inputs = [] := ⟨rfl, rfl⟩
theorem witness_StepSendsWireBytes :
    controlPoint (withInput (.wire [0x88#8])) = true ∧ Ready (withInput (.wire [0x88#8])) ∧
    decode (.wire [0x88#8]) = .error .shortFrame := ⟨rfl, by decide, rfl⟩
theorem witness_NoStepFromBroken :
    controlPoint broken = false ∧ Ready broken ∧ DualEdge broken ∧ Ready (rising broken) ∧ RisingOnly (rising broken) ∧
    controlPoint (rising broken) = false ∧ isCommandRow (.cmdData fD3) = true := by decide
theorem witness_StepKeepsInv : Inv (withInput (lines 0x02#8)) ∧ ∃ t, step (withInput (lines 0x02#8)) = .next t :=
  ⟨by decide, _, rfl⟩
/-- An invariant state in the middle of a Payload, with a staged byte. -/
theorem witness_Inv_inside_a_packet :
    Inv ((staging (lastBit .payload 0x04#8 2#16 1#16 0#16)).withFifo
      { cap := 1, committed := [], staged := [0x11#8] }) := by decide
theorem witness_NoOperationFaults : controlPoint (lastBit .dummy 0x08#8 0#16 0#16 0#16) = true := by decide
theorem witness_Refused :
    (State.powerOn Config.default).initialised = false ∧ isInitEngine .reset = false ∧
    (p0.withConfig { Config.default with rawDump := true }).config.rawDump = true ∧ controlPoint p0 = true := by decide
theorem witness_WrongDiscipline :
    WrongDiscipline (.onRising false) p0 ∧ WrongDiscipline (.onEdge true false) (rising p0) :=
  ⟨.inr ⟨⟨false, rfl⟩, rfl⟩, .inl ⟨⟨true, false, rfl⟩, rfl⟩⟩
theorem witness_WhatIsNotRefused :
    controlPoint (State.powerOn Config.default) = true ∧ (State.powerOn Config.default).config.rawDump = false ∧
    isInitEngine (.initEngine 1) = true ∧ ¬ WrongDiscipline (.initEngine 1) (State.powerOn Config.default) :=
  ⟨rfl, rfl, rfl, fun h => h.elim (fun ⟨⟨_, _, e⟩, _⟩ => by cases e) (fun ⟨⟨_, e⟩, _⟩ => by cases e)⟩
theorem witness_NoOperationWritesTheConfiguration :
    (∃ t, exec (.cmdData fD3) p0 = .next t) ∧ ∃ t, step (withInput (lines 0x06#8)) = .next t :=
  ⟨(next_of_after (p := fun _ => true) (by decide +kernel)).imp fun _ h => h.1, _, rfl⟩
theorem witness_OnlyInitEngineWrites : isInitEngine .reset = false ∧ ∃ t, exec .reset p0 = .next t := ⟨rfl, _, rfl⟩
theorem witness_ForegroundBits :
    (4#3 : BitVec 3) ≤ 4#3 ∧
      ∃ t, exec (.statusSetBit 4#3 true) p0 = .next t ∧ getStatusBit t.seq.status 4#3 = true :=
  ⟨by decide, next_of_after (p := fun t => getStatusBit t.seq.status 4#3) (by decide +kernel)⟩
theorem witness_Latches :
    (∃ t, exec (.cmdBreak (pkt 0x08#8 0#8 [])) (p0.withLatches allLatches) = .next t ∧ t.latches = allLatches) ∧
    ∃ t, exec .consumeData (p0.withLatches allLatches) = .next t ∧ isConsume .consumeData = true :=
  ⟨(next_of_after (p := fun t => t.latches == allLatches) (by decide +kernel)).imp fun _ h => ⟨h.1, by simpa using h.2⟩,
    _, rfl, rfl⟩
/-- Index 3, the last that is written, and HostReset. -/
theorem witness_PrintInstructionWritten :
    (∃ t, exec (.onEdge true true) (lastBit .payload 0x02#8 4#16 3#16 0x0040#16) = .next t ∧
      t.printInstruction.byte3 = 0x41#8) ∧
    ∃ t, exec .reset printed = .next t ∧ t.printInstruction ≠ printed.printInstruction :=
  ⟨(next_of_after (p := fun t => t.printInstruction.byte3 == 0x41#8) (by decide +kernel)).imp
      fun _ h => ⟨h.1, by simpa using h.2⟩,
    (next_of_after (p := fun t => t.printInstruction != printed.printInstruction) (by decide +kernel)).imp
      fun _ h => ⟨h.1, by simpa using h.2⟩⟩
/-- Index 4: no print byte is written. -/
theorem witness_PrintInstruction_dropped :
    after (.onEdge true true) (lastBit .payload 0x02#8 0#16 4#16 0x0040#16)
      (fun t => t.printInstruction == PrintInstruction.zero) = true := by decide +kernel
/-- One byte appended, and a BREAK's Dummy. -/
theorem witness_EdgeAppends :
    after (.onEdge true true) ((lastBit .payload 0x04#8 2#16 1#16 0#16).withFifo { cap := 2, committed := [9#8], staged := [] })
      (fun t => t.fifo.committed == [9#8, 1#8]) = true ∧
    after (.onEdge true true) ((lastBit .dummy 0x08#8 0#16 0#16 0#16).withFifo { cap := 2, committed := [9#8], staged := [] })
      (fun t => t.fifo.committed == []) = true := by decide +kernel
theorem witness_EdgeFrame :
    isEdgeOp (.onEdge true false) = true ∧
    after (.onEdge true false) (lastBit .header1 0#8 0#16 0#16 0#16) (fun t => t.packet.pstate == .header2) = true ∧
    after (.onRising true) (rising (lastBit .checksum 0x01#8 0#16 0#16 0#16)) (fun t => t.seq.dataPacketsRemaining == 6#8) =
      true := by decide +kernel
theorem witness_ForegroundFrame :
    isCommandRow .takeOne = false ∧ isEdgeOp .takeOne = false ∧ isHostReset .takeOne = false ∧ (∀ e, Instr.takeOne ≠ .tick e) ∧
    ∃ t, exec .takeOne p0 = .next t := ⟨rfl, rfl, rfl, (fun _ h => by cases h), _, rfl⟩
theorem witness_InitEngine : (State.powerOn Config.default).config.rawDump = false ∧ broken.config.rawDump = false := by decide
theorem witness_Reset : Ready broken ∧ Ready p0 := by decide
theorem witness_ResetsAreIdempotent :
    (∃ t, exec .reset printed = .next t) ∧ ReadyForFrame printed ∧
    ∃ t, exec (.cmdBreak (pkt 0x08#8 0#8 [])) printed = .next t ∧ t.resetReport = true :=
  ⟨⟨_, rfl⟩, by decide, next_of_after (p := fun t => t.resetReport) (by decide +kernel)⟩
/-- Disarmed; one millisecond short; exactly on time. -/
theorem witness_Tick :
    Ready p0 ∧ p0.timer = 0#32 ∧ 4999#32 < (p0.withTimer 5000#32).timer ∧ (p0.withTimer 5000#32).timer ≠ 0#32 ∧
    (p0.withTimer 5000#32).timer ≤ 5000#32 ∧ Ready (p0.withTimer 5000#32) := by decide
/-- The timer at 7: an edge within a transfer and a falling edge leave it, the end of a transfer and the sync word refill it, a
window one bit off leaves it, the end of a BREAK's Dummy disarms it; TICK counts it down; a frame refills it. -/
theorem witness_TimerRearmed :
    after (.onEdge true false) (((lastBit .header1 0#8 0#16 0#16 0#16).withShifter
      { mode := .wordBE, mask := 0x0002#16, rx := 0#16, tx := 0#16, sout := false }).withTimer 7#32)
      (fun t => t.timer == 7#32) = true ∧
    after (.onEdge false false) ((lastBit .header1 0#8 0#16 0#16 0#16).withTimer 7#32) (fun t => t.timer == 7#32) = true ∧
    after (.onEdge true false) ((lastBit .header1 0#8 0#16 0#16 0#16).withTimer 7#32) (fun t => t.timer == 5000#32) = true ∧
    after (.onRising true) ((rising (p0.withSync { window := 0x4419#16, synced := false })).withTimer 7#32)
      (fun t => t.timer == 5000#32) = true ∧
    after (.onEdge true false) ((p0.withSync { window := 0x4419#16, synced := false }).withTimer 7#32)
      (fun t => t.timer == 7#32) = true ∧
    after (.onEdge true false) ((lastBit .dummy 0x08#8 0#16 0#16 0#16).withTimer 7#32) (fun t => t.timer == 0#32) = true ∧
    after (.tick 1#32) (p0.withTimer 7#32) (fun t => t.timer == 6#32) = true ∧
    after (.cmdInit (pkt 0x01#8 0#8 [])) (p0.withTimer 7#32) (fun t => t.timer == 5000#32) = true := by decide +kernel
/-- Two bytes, one byte, none. -/
theorem witness_TakeOne :
    (p0.withFifo { cap := 2, committed := [1#8, 2#8], staged := [] }).fifo.committed = 1#8 :: 2#8 :: [] ∧
    (p0.withFifo { cap := 2, committed := [1#8], staged := [] }).fifo.committed = [1#8] ∧ p0.fifo.committed = [] := by decide
/-- The last offset inside, and the first past the count. -/
theorem witness_Peek :
    1 < (p0.withFifo { cap := 2, committed := [1#8, 2#8], staged := [] }).fifo.committed.length ∧
    (p0.withFifo { cap := 2, committed := [1#8, 2#8], staged := [] }).fifo.committed.length ≤ 2 := by decide
theorem witness_PrintAccessors :
    Ready printed ∧ printed.latches.printInstructionReceived = true ∧ p0.latches.printInstructionReceived = false := by decide
/-- The pattern 0x81 under the masks of its first and second bit. -/
theorem witness_FallingEdge :
    Ready p0 ∧ DualEdge p0 ∧ returns (.onEdge false true) (p0.withShifter
      { mode := .wordBE, mask := 0x8000#16, rx := 0#16, tx := 0x8100#16, sout := false }) (.level true) = true ∧
    returns (.onEdge false true) (p0.withShifter
      { mode := .wordBE, mask := 0x4000#16, rx := 0#16, tx := 0x8100#16, sout := true }) (.level false) = true := by
  decide +kernel
/-- V-SY1 and R150's example: the window 0x4419 and a 1 match, a 0 does not. -/
theorem witness_Synchroniser :
    controlPoint (p0.withSync { window := 0x4419#16, synced := false }) = true ∧
    after (.onEdge true true) (p0.withSync { window := 0x4419#16, synced := false })
      (fun t => t.sync == { window := 0#16, synced := true } && t.shifter.mask == 0x8000#16) = true ∧
    after (.onEdge true false) (p0.withSync { window := 0x4419#16, synced := false })
      (fun t => t.sync == { window := 0x8832#16, synced := false }) = true := by decide +kernel
/-- The first and the last bit but one of a word. -/
theorem witness_SamplesOneBit :
    controlPoint ((lastBit .header1 0#8 0#16 0#16 0#16).withShifter (beginTransfer .wordBE 0#16 .zero)) = true ∧
    (beginTransfer .wordBE 0#16 Shifter.zero).mask >>> 1 ≠ 0#16 ∧ (0x0002#16 : Half) >>> 1 ≠ 0#16 := by decide
theorem witness_LastBitOf :
    LastBitOf .header1 (lastBit .header1 0#8 0#16 0#16 0#16) ∧ LastBitOf .header2 (lastBit .header2 0x04#8 0#16 0#16 0#16) ∧
    LastBitOf .payload (lastBit .payload 0x04#8 2#16 1#16 0#16) ∧ LastBitOf .checksum (lastBit .checksum 0x04#8 2#16 2#16 0#16) ∧
    LastBitOf .dummy (lastBit .dummy 0x04#8 2#16 2#16 0#16) ∧ LastBitOf .dummy (lastBit .dummy 0x08#8 0#16 0#16 0#16) ∧
    Ready (lastBit .dummy 0x08#8 0#16 0#16 0#16) ∧ DualEdge (lastBit .dummy 0x08#8 0#16 0#16 0#16) := by decide
/-- DATA of length 1 and 0, PRINT of length 4 and 5, INIT of length 1: what Header2 dispatches to. The last bit is bit 0 of the
high byte. -/
theorem witness_Header2 :
    after (.onEdge true false) (lastBit .header2 0x04#8 0#16 0#16 0x0100#16)
      (fun t => t.packet.pstate == .payload && t.packet.dataLength == 1#16) = true ∧
    after (.onEdge true false) (lastBit .header2 0x04#8 0#16 0#16 0#16) (fun t => t.packet.pstate == .checksum) = true ∧
    after (.onEdge true false) (lastBit .header2 0x02#8 0#16 0#16 0x0400#16) (fun t => t.packet.dataLength == 4#16) = true ∧
    after (.onEdge true false) (lastBit .header2 0x02#8 0#16 0#16 0x0500#16) (fun t => t.packet.dataLength == 4#16) = true ∧
    after (.onEdge true false) (lastBit .header2 0x01#8 0#16 0#16 0x0100#16) (fun t => t.packet.pstate == .checksum) = true := by
  decide +kernel
/-- A full FIFO, a staged byte, and the index that wraps to 0. -/
theorem witness_Payload :
    after (.onEdge true true) ((lastBit .payload 0x04#8 9#16 1#16 0#16).withFifo { cap := 1, committed := [7#8], staged := [] })
      (fun t => t.fifo.committed == [7#8] && t.packet.pstate == .payload) = true ∧
    after (.onEdge true true) (staging (lastBit .payload 0x04#8 2#16 1#16 0#16)) (fun t => t.fifo.staged == [1#8]) = true ∧
    after (.onEdge true true) (lastBit .payload 0x02#8 0#16 0xFFFF#16 0#16)
      (fun t => t.packet.pstate == .checksum && t.packet.dataIndex == 0#16) = true := by decide +kernel
/-- Staged bytes at equal and at unequal sums. -/
theorem witness_Dummy :
    after (.onEdge true true) ((staging (lastBit .dummy 0x04#8 1#16 1#16 0#16)).withFifo
        { cap := 2, committed := [7#8], staged := [8#8] })
      (fun t => t.fifo == { cap := 2, committed := [7#8, 8#8], staged := [] } && t.latches.dataPacketReceived) = true ∧
    after (.onEdge true true) (((staging (lastBit .dummy 0x04#8 1#16 1#16 0#16)).withFifo
        { cap := 2, committed := [7#8], staged := [8#8] }).withPacket
        { (lastBit .dummy 0x04#8 1#16 1#16 0#16).packet with receivedChecksum := 1#16 })
      (fun t => t.fifo == { cap := 2, committed := [7#8], staged := [] }) = true := by decide +kernel
theorem witness_OnRising : Ready (rising p0) ∧ RisingOnly (rising p0) ∧ controlPoint (rising p0) = true := by decide
/-- Counters on both sides of each boundary. -/
theorem witness_InquiryStep :
    1#8 < (2#8 : Byte) ∧ (inquiryStep { Sequencer.zero with untransmittedRemaining := 2#8 }).untransmittedRemaining = 1#8 ∧
    (inquiryStep { Sequencer.zero with untransmittedRemaining := 1#8, busyRemaining := 1#8, status := 0x08#8 }).status = 0x06#8 ∧
    (inquiryStep { Sequencer.zero with untransmittedRemaining := 1#8, status := 0x0E#8 }).status = 0x06#8 ∧
    (inquiryStep { Sequencer.zero with busyRemaining := 2#8, status := 0x02#8 }) =
      { Sequencer.zero with busyRemaining := 1#8, status := 0x02#8 } ∧
    (inquiryStep { Sequencer.zero with busyRemaining := 1#8, status := 0x02#8 }).status = 0#8 := by decide
/-- Frames with no payload and with two payload bytes, and the four bytes that follow LENGTH. -/
theorem witness_Frames :
    ReadyForFrame p0 ∧ ReadyForFrame (rising p0) ∧ (pkt 0x01#8 0#8 []).wf = true ∧
    (pkt 0x01#8 0#8 []).payload ++ frameTail (pkt 0x01#8 0#8 []) = [0x01#8, 0x00#8, 0x00#8, 0x00#8] ∧
    (Instr.cmdUnknown 0x10#8 (frame [0xAB#8, 0xCD#8] 0x018A#16)).wf = true ∧
    (frame [0xAB#8, 0xCD#8] 0x018A#16).payload ++ frameTail (frame [0xAB#8, 0xCD#8] 0x018A#16) =
      [0xAB#8, 0xCD#8, 0x8A#8, 0x01#8, 0x00#8, 0x00#8] := by decide
/-- PRINT of length 5: the fifth byte is read as a checksum byte. PRINT of length 0. -/
theorem witness_PrintFrames :
    (frame [1#8, 2#8, 3#8, 4#8, 5#8] 0xBBAA#16).payload ≠ [] ∧
    (frame [1#8, 2#8, 3#8, 4#8, 5#8] 0xBBAA#16).payload.drop 4 ++ frameTail (frame [1#8, 2#8, 3#8, 4#8, 5#8] 0xBBAA#16) =
      [5#8, 0xAA#8, 0xBB#8, 0#8, 0#8] ∧
    (frame [] 0xBBAA#16).payload = [] ∧ frameTail (frame [] 0xBBAA#16) = [0xAA#8, 0xBB#8, 0#8, 0#8] := by decide
/-- The first four payload bytes of an empty PRINT are its checksum and dummy bytes. -/
theorem witness_EmptyPrint :
    after (.cmdPrint (frame [] 0xBBAA#16)) p0 (fun t => t.packet.pstate == .payload && t.packet.dataIndex == 4#16 &&
      t.printInstruction == { byte0 := 0xAA#8, byte1 := 0xBB#8, byte2 := 0#8, byte3 := 0#8 }) = true := by decide +kernel
/-- DATA at its boundaries: the packet that takes `data_packets_remaining` from 1 to 0, and the empty payload (scenarios 4, 5). -/
theorem witness_DataFrames :
    ReadyForFrame (p0.withSeq { Sequencer.zero with dataPacketsRemaining := 1#8 }) ∧ (pkt 0x04#8 0#8 []).wf = true ∧
    after (.cmdData fD3) (p0.withSeq { Sequencer.zero with dataPacketsRemaining := 1#8 })
      (fun t => t.seq.status == 0x0C#8 && t.seq.dataPacketsRemaining == 0#8) = true ∧
    after (.cmdData (pkt 0x04#8 0#8 [])) (p0.withSeq { Sequencer.zero with status := 0x08#8, dataPacketsRemaining := 5#8 })
      (fun t => t.result == backOf 8 0x08#8 && t.seq.status == 0x00#8 && t.seq.dataPacketsRemaining == 4#8 &&
        t.latches.dataEndReceived && !t.latches.dataPacketReceived) = true := by decide +kernel
/-- A BREAK's sums at ChecksumDone: both are the 8 it sends. -/
theorem witness_BreakSums :
    (sendBytes ((frameBytes 0x08#8 (pkt 0x08#8 0#8 [])).take 8) p0).2.packet.computedChecksum = 0x0008#16 ∧
    (sendBytes ((frameBytes 0x08#8 (pkt 0x08#8 0#8 [])).take 8) p0).2.packet.receivedChecksum = 0x0008#16 := by decide +kernel
/-- The lowest and the highest byte that is no command, and the two beside DATA's. -/
theorem witness_CommandActions :
    classify 0x00#8 = .unknown ∧ classify 0x03#8 = .unknown ∧ classify 0x05#8 = .unknown ∧ classify 0xFF#8 = .unknown := by
  decide
theorem witness_WellFormedFrames :
    fD3.wf = true ∧ ReadyForFrame p0 ∧ fD3.checksum = frameChecksum 0x04#8 fD3 ∧
    after (commandInstr 0x04#8 fD3) p0 (fun t => t.packet.receivedChecksum == 0x006D#16) = true ∧
    after (commandInstr 0x02#8 (pkt 0x02#8 0#8 [1#8])) p0 (fun t => t.packet.receivedChecksum == 0x0004#16) = true ∧
    after (commandInstr 0x0F#8 (pkt 0x0F#8 0#8 [])) p0 (fun t => t.packet.receivedChecksum == 0x000F#16) = true := by
  decide +kernel
theorem witness_FrameIsTheRun :
    isCommandRow (.cmdInit (frame [] 0x0001#16)) = true ∧
    encode (.cmdInit (frame [] 0x0001#16)) =
      .wire [0x88#8, 0x33#8, 0x01#8, 0x00#8, 0x00#8, 0x00#8, 0x01#8, 0x00#8, 0x00#8, 0x00#8] ∧
    Ready p0 ∧ controlPoint p0 = true ∧ 79 < 8 * 10 := by decide
theorem witness_BothDisciplines : AwaitingPreamble p0 ∧ AwaitingPreamble printed := by decide
/-- Law L3's eleven noise bits, and no noise. -/
theorem witness_Noise :
    AwaitingPreamble p0 ∧
    ¬ magicBits <:+: [true, true, false, true, false, false, true, true, true, false, true] ∧
    ¬ magicBits.take 15 <:+ [true, true, false, true, false, false, true, true, true, false, true] ∧
    ¬ magicBits <:+: [] ∧ ¬ magicBits.take 15 <:+ [] := by decide
theorem witness_TakenBytes : Config.default.rawDump = false ∧ [7#8].length < 65536 ∧ [7#8].length ≤ 1 ∧ 0 < [7#8].length := by
  decide
/-- V-CM6's counters: the INQUIRY that sets BUSY, and the last that reports it. -/
theorem witness_Busy :
    ReadyForFrame (p0.withSeq { Sequencer.zero with untransmittedRemaining := 1#8, busyRemaining := 3#8 }) ∧
    (3#8 : Byte) ≠ 0#8 ∧ 0 ≤ (3#8 : Byte).toNat ∧ 3 ≤ (3#8 : Byte).toNat := by decide

end Sys2Proof.Tests
end

section
/-! The scope of the model (spec/00_scope.md R9, R15, R16, R19): what is refused, what completes, what stays fixed. Every claim
below follows from one statement about `exec` (`exec_guarded`) and one equation per case of `step`. -/

namespace Sys2Proof.Machine

/-! ## The fields only INIT_ENGINE may write -/

/-- What every operation but INIT_ENGINE leaves as it was: the configuration (00_scope.md R9), the schedule (log 2), and
`initialised` and CAP (10_state.md R32, R33). -/
structure SameInstance (s t : State) : Prop where
  config : t.config = s.config
  inputs : t.inputs = s.inputs
  initialised : t.initialised = s.initialised
  cap : t.fifo.cap = s.fifo.cap

theorem SameEnvironment.sameInstance {s t : State} (h : SameEnvironment s t) : SameInstance s t :=
  ⟨h.config, h.inputs, h.initialised, h.cap⟩

theorem SameInstance.withResult {s t : State} (h : SameInstance s t) (v : Result) : SameInstance s (t.withResult v) :=
  ⟨h.config, h.inputs, h.initialised, h.cap⟩

theorem SameInstance.returnSout {s t : State} (h : SameInstance s t) : SameInstance s (returnSout t) := h.withResult _

/-- An operation that returns a value and writes nothing else. -/
theorem withResult_sameInstance (s : State) (v : Result) : SameInstance s (s.withResult v) := ⟨rfl, rfl, rfl, rfl⟩

theorem hostReset_sameInstance (s : State) : SameInstance s (hostReset s) := ⟨rfl, rfl, rfl, rfl⟩

theorem tickEffect_sameInstance (e : Millis) (s : State) : SameInstance s (tickEffect e s) := by
  obtain ⟨_, h⟩ | ⟨_, _, h⟩ | ⟨_, h⟩ := tickEffect_cases e s <;> rw [h] <;> exact ⟨rfl, rfl, rfl, rfl⟩

theorem ringTake_sameInstance (s : State) : SameInstance s (ringTake s) := by
  obtain ⟨_, h⟩ | ⟨_, _, h⟩ | ⟨_, _, _, _, h⟩ := ringTake_cases s <;> rw [h] <;> exact ⟨rfl, rfl, rfl, rfl⟩

theorem ringPeek_sameInstance (k : Nat) (s : State) : SameInstance s (ringPeek k s) := by
  obtain ⟨_, h⟩ | ⟨_, h⟩ := ringPeek_cases k s <;> rw [h] <;> exact ⟨rfl, rfl, rfl, rfl⟩

theorem sendBytes_sameInstance (bytes : List Byte) (s : State) :
    SameInstance s ((sendBytes bytes s).2.withResult (.back (sendBytes bytes s).1)) :=
  (sendBytes_same bytes s).sameInstance.withResult _

/-! ## What an operation answers behind the guard of R16 -/

/-- The answers an operation `i` other than INIT_ENGINE can give in `s` once the guard has let it through. -/
inductive Served (i : Instr) (s : State) : Host.Outcome State Fault Refusal → Prop
  /-- The edge operation of the other discipline (40_bit_shifter.md R136). -/
  | wrongDiscipline (h : WrongDiscipline i s) : Served i s (.refused .wrongDiscipline)
  /-- An operation that does not ask where the control point stands. -/
  | atOnce {t : State} (h : ¬ WrongDiscipline i s) (same : SameInstance s t) : Served i s (.next t)
  /-- A rising edge or a frame, which takes no step from a broken control point (10_state.md R53). -/
  | controlled {t : State} (h : ¬ WrongDiscipline i s) (same : SameInstance s t) :
      Served i s (whenControlled s (.next t))

/-- `i` stands behind the guard of R16, and what it does there is `Served`. -/
def Guarded (i : Instr) (s : State) : Prop := ∃ go, exec i s = whenReady s go ∧ Served i s go

/-- Only an edge operation can be of the other discipline. -/
theorem not_wrongDiscipline {i : Instr} (h : isEdgeOp i = false) (s : State) : ¬ WrongDiscipline i s := by
  rintro (⟨⟨c, d, rfl⟩, _⟩ | ⟨⟨d, rfl⟩, _⟩)
  · cases h
  · cases h

/-- A foreground operation completes at once. -/
theorem guarded_of_next {i : Instr} {s t : State} (hi : isEdgeOp i = false) (he : exec i s = whenReady s (.next t))
    (same : SameInstance s t) : Guarded i s :=
  ⟨_, he, .atOnce (not_wrongDiscipline hi s) same⟩

/-- A command row sends its bytes from a legal control point. -/
theorem guarded_of_transmit {i : Instr} {s : State} {bytes : List Byte} (hi : isEdgeOp i = false)
    (he : exec i s = transmit bytes s) : Guarded i s :=
  ⟨_, he, .controlled (not_wrongDiscipline hi s) (sendBytes_sameInstance bytes s)⟩

/-- A consume operation writes the latches and the returned value. -/
theorem guarded_of_consume {i : Instr} {s : State} {r : Bool} {l : Latches} (hi : isEdgeOp i = false)
    (he : exec i s = consume r l s) : Guarded i s :=
  guarded_of_next hi he ⟨rfl, rfl, rfl, rfl⟩

/-- ON_EDGE: refused under rising-only; a rising edge asks for the control point, a falling edge does not (R139). -/
theorem guarded_onEdge (c d : Bool) (s : State) : Guarded (.onEdge c d) s := by
  refine ⟨_, rfl, ?_⟩
  cases hd : s.config.risingOnlyIsr
  · have ok : ¬ WrongDiscipline (.onEdge c d) s := by simp [WrongDiscipline, hd]
    cases c
    · exact .atOnce ok (driveOut_same s).sameInstance.returnSout
    · exact .controlled ok (sampleRising_same d s).sameInstance.returnSout
  · exact .wrongDiscipline (.inl ⟨⟨c, d, rfl⟩, hd⟩)

/-- ON_RISING: refused under dual-edge, else it asks for the control point (R140). -/
theorem guarded_onRising (d : Bool) (s : State) : Guarded (.onRising d) s := by
  refine ⟨_, rfl, ?_⟩
  cases hd : s.config.risingOnlyIsr
  · exact .wrongDiscipline (.inr ⟨⟨d, rfl⟩, hd⟩)
  · have ok : ¬ WrongDiscipline (.onRising d) s := by simp [WrongDiscipline, hd]
    exact .controlled ok ((sampleRising_same d s).trans (driveOut_same _)).sameInstance.returnSout

/-- What `exec` can do, said once for every row but INIT_ENGINE (00_scope.md R15, R16). -/
theorem exec_guarded {i : Instr} (h : isInitEngine i = false) (s : State) : Guarded i s := by
  cases i with
  | initEngine cap => cases h
  | cmdInit f => exact guarded_of_transmit rfl rfl
  | cmdPrint f => exact guarded_of_transmit rfl rfl
  | cmdData f => exact guarded_of_transmit rfl rfl
  | cmdBreak f => exact guarded_of_transmit rfl rfl
  | cmdInquiry f => exact guarded_of_transmit rfl rfl
  | cmdUnknown c f => exact guarded_of_transmit rfl rfl
  | onEdge c d => exact guarded_onEdge c d s
  | onRising d => exact guarded_onRising d s
  | reset => exact guarded_of_next rfl rfl (hostReset_sameInstance s)
  | tick e => exact guarded_of_next rfl rfl (tickEffect_sameInstance e s)
  | takeOne => exact guarded_of_next rfl rfl (ringTake_sameInstance s)
  | peek k => exact guarded_of_next rfl rfl (ringPeek_sameInstance k s)
  | consumeInit => exact guarded_of_consume rfl rfl
  | consumeData => exact guarded_of_consume rfl rfl
  | consumePrint => exact guarded_of_consume rfl rfl
  | consumeBreak => exact guarded_of_consume rfl rfl
  | consumeInquiry => exact guarded_of_consume rfl rfl
  | consumeDataEnd => exact guarded_of_consume rfl rfl
  | consumePacketCompleted => exact guarded_of_consume rfl rfl
  | available => exact guarded_of_next rfl rfl (withResult_sameInstance s _)
  | piSheets => exact guarded_of_next rfl rfl (withResult_sameInstance s _)
  | piLfBefore => exact guarded_of_next rfl rfl (withResult_sameInstance s _)
  | piLfAfter => exact guarded_of_next rfl rfl (withResult_sameInstance s _)
  | piPalette => exact guarded_of_next rfl rfl (withResult_sameInstance s _)
  | piDensity => exact guarded_of_next rfl rfl (withResult_sameInstance s _)
  | statusGetBit k => exact guarded_of_next rfl rfl (withResult_sameInstance s _)
  | statusSetBit k v => exact guarded_of_next rfl rfl ⟨rfl, rfl, rfl, rfl⟩
  | statusWord => exact guarded_of_next rfl rfl (withResult_sameInstance s _)

/-! ## The three outcomes of `Served` -/

theorem Served.refused_iff {i : Instr} {s : State} {go : Host.Outcome State Fault Refusal} (h : Served i s go) :
    (∃ r, go = .refused r) ↔ WrongDiscipline i s := by
  cases h with
  | wrongDiscipline hw => exact ⟨fun _ => hw, fun _ => ⟨_, rfl⟩⟩
  | atOnce hw _ => exact ⟨fun ⟨_, e⟩ => (by cases e), fun k => absurd k hw⟩
  | controlled hw _ =>
    refine ⟨fun ⟨_, e⟩ => ?_, fun k => absurd k hw⟩
    unfold whenControlled at e
    split at e <;> cases e

theorem Served.completes {i : Instr} {s : State} {go : Host.Outcome State Fault Refusal} (h : Served i s go)
    (hc : controlPoint s = true) (hw : ¬ WrongDiscipline i s) : ∃ t, go = .next t := by
  cases h with
  | wrongDiscipline k => exact absurd k hw
  | atOnce => exact ⟨_, rfl⟩
  | controlled => exact ⟨_, whenControlled_of hc _⟩

theorem Served.sameInstance {i : Instr} {s t : State} (h : Served i s (.next t)) : SameInstance s t := by
  generalize hgo : (Host.Outcome.next t : Host.Outcome State Fault Refusal) = go at h
  cases h with
  | wrongDiscipline _ => cases hgo
  | atOnce _ same => cases hgo; exact same
  | controlled _ same =>
    obtain ⟨_, e⟩ := whenControlled_next hgo.symm
    cases e
    exact same

/-! ## What `exec` refuses, completes and keeps -/

theorem eq_initEngine {i : Instr} (h : isInitEngine i = true) : ∃ cap, i = .initEngine cap := by
  cases i with
  | initEngine cap => exact ⟨cap, rfl⟩
  | _ => cases h

theorem exec_initEngine_refused_iff (cap : Nat) (s : State) :
    (∃ r, exec (.initEngine cap) s = .refused r) ↔ s.config.rawDump = true := by
  show (∃ r, execInitEngine cap s = .refused r) ↔ _
  cases hr : s.config.rawDump <;> simp [execInitEngine, hr]

/-- INIT_ENGINE answers a state of the same configuration and schedule. -/
theorem exec_initEngine_next {cap : Nat} {s t : State} (h : exec (.initEngine cap) s = .next t) :
    t.config = s.config ∧ t.inputs = s.inputs := by
  change execInitEngine cap s = .next t at h
  unfold execInitEngine at h
  split at h
  · cases h
  · cases h
    exact ⟨rfl, rfl⟩

theorem exec_refused_iff (i : Instr) (s : State) :
    (∃ r, exec i s = .refused r) ↔
      s.config.rawDump = true ∨ (s.initialised = false ∧ isInitEngine i = false) ∨ WrongDiscipline i s := by
  cases hi : isInitEngine i
  · obtain ⟨go, he, hs⟩ := exec_guarded hi s
    rw [he, whenReady_refused_iff, hs.refused_iff]
    cases hr : s.config.rawDump <;> cases hn : s.initialised <;> simp [Ready, hr, hn]
  · obtain ⟨cap, rfl⟩ := eq_initEngine hi
    have ok : ¬ WrongDiscipline (.initEngine cap) s := not_wrongDiscipline rfl s
    rw [exec_initEngine_refused_iff]
    simp [ok]

theorem exec_completes {i : Instr} {s : State} (hc : controlPoint s = true) (hr : s.config.rawDump = false)
    (hi : s.initialised = true ∨ isInitEngine i = true) (hw : ¬ WrongDiscipline i s) : ∃ t, exec i s = .next t := by
  cases h : isInitEngine i
  · obtain ⟨go, he, hs⟩ := exec_guarded h s
    have ready : Ready s := ⟨hr, hi.resolve_right (by simp [h])⟩
    rw [he, whenReady_of_ready ready]
    exact hs.completes hc hw
  · obtain ⟨cap, rfl⟩ := eq_initEngine h
    exact ⟨_, if_neg (by simp [hr])⟩

theorem exec_sameInstance {i : Instr} {s t : State} (hi : isInitEngine i = false) (h : exec i s = .next t) :
    SameInstance s t := by
  obtain ⟨go, he, hs⟩ := exec_guarded hi s
  obtain ⟨_, rfl⟩ := whenReady_next (he ▸ h)
  exact hs.sameInstance

theorem exec_keeps_config_and_inputs {i : Instr} {s t : State} (h : exec i s = .next t) :
    t.config = s.config ∧ t.inputs = s.inputs := by
  cases hi : isInitEngine i
  · exact ⟨(exec_sameInstance hi h).config, (exec_sameInstance hi h).inputs⟩
  · obtain ⟨cap, rfl⟩ := eq_initEngine hi
    exact exec_initEngine_next h

theorem transmit_sameInstance {bytes : List Byte} {s t : State} (h : transmit bytes s = .next t) : SameInstance s t := by
  obtain ⟨_, h⟩ := whenReady_next h
  obtain ⟨_, h⟩ := whenControlled_next h
  cases h
  exact sendBytes_sameInstance bytes s

/-! ## One equation per case of `step` -/

theorem step_nil {s : State} (hc : controlPoint s = true) (h : s.inputs = []) : step s = .next s := by
  rw [step, whenControlled_of hc, takeInput_nil h]

theorem step_cons_ok {s : State} {x : Input} {rest : List Input} {i : Instr} (hc : controlPoint s = true)
    (h : s.inputs = x :: rest) (hd : decode x = .ok i) : step s = exec i { s with inputs := rest } := by
  rw [step, whenControlled_of hc, takeInput_cons h]
  simp only [hd]

theorem step_cons_error {s : State} {x : Input} {rest : List Input} {e : DecodeError} (hc : controlPoint s = true)
    (h : s.inputs = x :: rest) (hd : decode x = .error e) : step s = execUndecoded x { s with inputs := rest } := by
  rw [step, whenControlled_of hc, takeInput_cons h]
  simp only [hd]

theorem execUndecoded_keeps_config {x : Input} {s t : State} (h : execUndecoded x s = .next t) :
    t.config = s.config := by
  cases x with
  | wire bytes => exact (transmit_sameInstance h).config
  | request r => cases h

theorem step_keeps_config {s t : State} (h : step s = .next t) : t.config = s.config := by
  obtain ⟨hc, _⟩ := whenControlled_next h
  cases hq : s.inputs with
  | nil =>
    rw [step_nil hc hq] at h
    cases h
    rfl
  | cons x rest =>
    cases hd : decode x with
    | ok i =>
      rw [step_cons_ok hc hq hd] at h
      exact (exec_keeps_config_and_inputs h).1
    | error e =>
      rw [step_cons_error hc hq hd] at h
      exact (execUndecoded_keeps_config h :)

/-! ## The reserved transaction codes -/

/-- Whether a request names an operation depends on its code alone (30_encoding.md R120). -/
theorem decodeRequest_isOk_ofCode (r : Request) :
    (decodeRequest r).isOk = (decodeRequest (.ofCode r.code)).isOk := by
  simp only [decodeRequest, apply_ite Except.isOk]
  rfl

/-- The 256 codes, R121: exactly the reserved ones name no operation. -/
theorem decodeRequest_ofCode_isOk (c : Byte) : (decodeRequest (.ofCode c)).isOk = decide (¬ ReservedCode c) := by
  revert c
  decide

theorem decode_request_isOk (q : Request) : (decode (.request q)).isOk = decide (¬ ReservedCode q.code) :=
  (decodeRequest_isOk_ofCode q).trans (decodeRequest_ofCode_isOk q.code)

/-- A request in front of the schedule is refused for its code or by its operation (R121, R16). -/
theorem step_request_refused_iff {s : State} {q : Request} {rest : List Input} (hc : controlPoint s = true)
    (h : s.inputs = .request q :: rest) :
    (∃ r, step s = .refused r) ↔
      (ReservedCode q.code ∨ ∃ i, decode (.request q) = .ok i ∧ ∃ r, exec i { s with inputs := rest } = .refused r) := by
  have code := decode_request_isOk q
  cases hd : decode (.request q) with
  | ok i =>
    have named : ¬ ReservedCode q.code := of_decide_eq_true (by rw [← code, hd]; rfl)
    rw [step_cons_ok hc h hd]
    simp [named]
  | error e =>
    have reserved : ReservedCode q.code := not_not.1 (of_decide_eq_false (by rw [← code, hd]; rfl))
    rw [step_cons_error hc h hd]
    exact ⟨fun _ => .inl reserved, fun _ => ⟨_, rfl⟩⟩

/-! ## The obligations -/

/-- Settles O11: `exec_refused_iff` for the instructions, `step_request_refused_iff` for a step that finds a request. -/
theorem refusedExactlyWhenListed : Obligations.RefusedExactlyWhenListed :=
  ⟨exec_refused_iff, fun _ _ _ hc h => step_request_refused_iff hc h⟩

/-- Settles O12: behind the guard, an operation of the built discipline completes at a legal control point. -/
theorem whatIsNotRefusedCompletes : Obligations.WhatIsNotRefusedCompletes :=
  fun _ _ hc hr hi hw => exec_completes hc hr hi hw

/-- Settles O13: no answer of `exec_guarded` writes the configuration or the schedule, and `step` only takes an input. -/
theorem noOperationWritesTheConfiguration : Obligations.NoOperationWritesTheConfiguration :=
  ⟨fun _ _ _ h => exec_keeps_config_and_inputs h, fun _ _ h => step_keeps_config h⟩

/-- Settles O5. -/
theorem stepWithoutInputHoldsTheState : Obligations.StepWithoutInputHoldsTheState :=
  fun _ hc h => step_nil hc h

end Sys2Proof.Machine
end

section
/-! What an operation can do to the state, said once: a rising edge, an operation of the serial line, an operation of the
foreground. From it the invariant of reachable states (spec/10_state.md R35, R53, R54; 41_preamble_sync.md R156) and who
writes `initialised`, CAP, the status byte and the latches (10_state.md R32, R33, R45, R50). -/

namespace Sys2Proof.Machine

/-! ## What a rising edge can do -/

/-- Where a transition starts: the last bit of the transfer is sampled in and the timer refilled (40_bit_shifter.md R133,
42_packet_fsm.md R160). -/
def lastSampled (d : Bool) (s : State) : State :=
  (s.withShifter (sampleBit d s.shifter)).withTimer s.config.timeoutMs

/-- The states a rising edge with data level `d` can lead to from `s` (40_bit_shifter.md R133). -/
inductive RisingEdge (d : Bool) (s : State) : State → Prop
  /-- The synchroniser takes the bit (41_preamble_sync.md R150). -/
  | scan (hs : s.sync.synced = false) : RisingEdge d s (syncStep d s)
  /-- A bit of a transfer, not its last. -/
  | within (hs : s.sync.synced = true) (hm : s.shifter.mask >>> 1 ≠ 0#16) :
      RisingEdge d s (s.withShifter (sampleBit d s.shifter))
  /-- The last bit of Header1 (42_packet_fsm.md R161). -/
  | header1 (hs : s.sync.synced = true) (hm : s.shifter.mask >>> 1 = 0#16) (hp : s.packet.pstate = .header1) :
      RisingEdge d s (header1Done (lastSampled d s))
  /-- The last bit of Header2 (R162). -/
  | header2 (hs : s.sync.synced = true) (hm : s.shifter.mask >>> 1 = 0#16) (hp : s.packet.pstate = .header2) :
      RisingEdge d s (header2Done (lastSampled d s))
  /-- The last bit of a payload byte (R165). -/
  | payload (hs : s.sync.synced = true) (hm : s.shifter.mask >>> 1 = 0#16) (hp : s.packet.pstate = .payload) :
      RisingEdge d s (payloadDone (lastSampled d s))
  /-- The last bit of Checksum (R168). -/
  | checksum (hs : s.sync.synced = true) (hm : s.shifter.mask >>> 1 = 0#16) (hp : s.packet.pstate = .checksum) :
      RisingEdge d s (checksumDone (lastSampled d s))
  /-- The last bit of Dummy (R170). -/
  | dummy (hs : s.sync.synced = true) (hm : s.shifter.mask >>> 1 = 0#16) (hp : s.packet.pstate = .dummy) :
      RisingEdge d s (dummyDone (lastSampled d s))

theorem risingEdge_sampleRising (d : Bool) (s : State) : RisingEdge d s (sampleRising d s) := by
  cases hs : s.sync.synced
  · rw [sampleRising_unsynced d hs]
    exact .scan hs
  · by_cases hm : s.shifter.mask >>> 1 = 0#16
    · rw [sampleRising_last d hs hm]
      unfold transition
      dsimp only
      split
      case h_1 hp => exact .header1 hs hm hp
      case h_2 hp => exact .header2 hs hm hp
      case h_3 hp => exact .payload hs hm hp
      case h_4 hp => exact .checksum hs hm hp
      case h_5 hp => exact .dummy hs hm hp
    · rw [sampleRising_within d hs hm]
      exact .within hs hm

/-- What Header2Done can do (42_packet_fsm.md R162): only a non-empty DATA and a PRINT enter Payload. -/
theorem header2Done_cases (s : State) :
    (classify s.packet.command = .data ∧ rxWord s.shifter ≠ 0#16 ∧
      header2Done s =
        armTransfer .payload .byte 0#16 (s.withPacket { s.packet with dataLength := rxWord s.shifter })) ∨
    (classify s.packet.command = .print ∧
      header2Done s =
        armTransfer .payload .byte 0#16 (s.withPacket { s.packet with dataLength := clampPrint (rxWord s.shifter) })) ∨
    (classify s.packet.command ≠ .print ∧
      header2Done s =
        armTransfer .checksum .wordLE 0#16 (s.withPacket { s.packet with dataLength := rxWord s.shifter })) := by
  unfold header2Done
  dsimp only
  split
  case h_1 hc =>
    by_cases h0 : rxWord s.shifter = 0#16
    · exact .inr (.inr ⟨by simp [hc], if_pos h0⟩)
    · exact .inl ⟨hc, h0, if_neg h0⟩
  case h_2 hc => exact .inr (.inl ⟨hc, rfl⟩)
  all_goals exact .inr (.inr ⟨by simp [*], rfl⟩)

theorem clampPrint_le (len : Half) : clampPrint len ≤ 4#16 := by
  unfold clampPrint
  split
  · assumption
  · exact BitVec.le_refl _

/-- The payload byte is stored, summed and counted, and no transfer armed yet (42_packet_fsm.md R165). -/
def payloadTaken (s : State) : State :=
  let t := storePayload (rxByte s.shifter) s
  t.withPacket { t.packet with
    computedChecksum := s.packet.computedChecksum + zext16 (rxByte s.shifter), dataIndex := s.packet.dataIndex + 1#16 }

/-- What PayloadDone can do (R165): the index reaches the length and Checksum follows, or another payload byte does. -/
theorem payloadDone_cases (s : State) :
    (s.packet.dataIndex + 1#16 = s.packet.dataLength ∧
      payloadDone s = armTransfer .checksum .wordLE 0#16 (payloadTaken s)) ∨
    (s.packet.dataIndex + 1#16 ≠ s.packet.dataLength ∧
      payloadDone s = armTransfer .payload .byte 0#16 (payloadTaken s)) := by
  by_cases h : s.packet.dataIndex + 1#16 = s.packet.dataLength
  · exact .inl ⟨h, if_pos h⟩
  · exact .inr ⟨h, if_neg h⟩

/-- Taking a payload byte writes the FIFO or the print instruction, the sum and the index (R165). -/
structure PayloadTakenFrame (s t : State) : Prop where
  packet : t.packet = { s.packet with
    computedChecksum := s.packet.computedChecksum + zext16 (rxByte s.shifter), dataIndex := s.packet.dataIndex + 1#16 }
  shifter : t.shifter = s.shifter
  sync : t.sync = s.sync
  seq : t.seq = s.seq
  latches : t.latches = s.latches
  config : t.config = s.config
  fifo : t.fifo = s.fifo ∨ t.fifo = ringEnqueue s.config.stageOnChecksum (rxByte s.shifter) s.fifo

theorem payloadTaken_frame (s : State) : PayloadTakenFrame s (payloadTaken s) := by
  unfold payloadTaken
  obtain ⟨_, h⟩ | ⟨_, h⟩ | ⟨_, _, h⟩ := storePayload_cases (rxByte s.shifter) s <;> simp only [h]
  · exact ⟨rfl, rfl, rfl, rfl, rfl, rfl, .inr rfl⟩
  · exact ⟨rfl, rfl, rfl, rfl, rfl, rfl, .inl rfl⟩
  · exact ⟨rfl, rfl, rfl, rfl, rfl, rfl, .inl rfl⟩

/-- The packet's registers when ChecksumDone compares its sums (42_packet_fsm.md R168). -/
def summedPacket (s : State) : Packet :=
  { s.packet with receivedChecksum := rxWord s.shifter, computedChecksum := foldHeader s.packet }

/-- The sequencer ChecksumDone hands to the pre-dummy action: a mismatch sets CHECKSUM_ERROR (R168). -/
def comparedSeq (s : State) : Sequencer :=
  if s.config.useChecksum && !sumsAgree (summedPacket s) then s.seq.putBit checksumErrorBit true else s.seq

theorem comparedSeq_cases (s : State) : comparedSeq s = s.seq ∨ comparedSeq s = s.seq.putBit checksumErrorBit true := by
  unfold comparedSeq
  split
  · exact .inr rfl
  · exact .inl rfl

/-- The sequencer ChecksumDone leaves (R168). -/
def checksumSeq (s : State) : Sequencer := preDummy s.config s.packet.command (comparedSeq s)

theorem checksumDone_eq (s : State) :
    checksumDone s =
      armTransfer .dummy .wordBE (statusWordOf (checksumSeq s)) ((s.withPacket (summedPacket s)).withSeq (checksumSeq s)) :=
  rfl

/-- The packet is over and the shifter idle; for a BREAK the cancellation reset is still to come (R170). -/
def packetEnded (s : State) : State :=
  { s with
    shifter := .zero
    sync := { s.sync with synced := false }
    packet := { s.packet with pstate := .header1 }
    seq := postDummy s.packet.command s.packet.dataLength s.seq
    latches := { raiseFlag s.packet.command s.packet.dataLength s.latches with packetCompleted := true }
    fifo := settleStaged s.config s.packet s.fifo }

/-- What DummyDone can do (R170): end the packet, and for BREAK run the cancellation reset last (D17). -/
theorem dummyDone_cases (s : State) :
    (classify s.packet.command ≠ .break_ ∧ dummyDone s = packetEnded s) ∨
    (classify s.packet.command = .break_ ∧ dummyDone s = cancelReset .break_ (packetEnded s)) := by
  by_cases h : classify s.packet.command = .break_
  · exact .inr ⟨h, if_pos h⟩
  · exact .inl ⟨h, if_neg h⟩

/-- What SyncStep can do (41_preamble_sync.md R150). -/
theorem syncStep_cases (d : Bool) (s : State) :
    (shiftWindow d s.sync.window = magic ∧ syncStep d s = syncMatch s) ∨
    (shiftWindow d s.sync.window ≠ magic ∧
      syncStep d s = s.withSync { s.sync with window := shiftWindow d s.sync.window }) := by
  by_cases h : shiftWindow d s.sync.window = magic
  · exact .inl ⟨h, if_pos h⟩
  · exact .inr ⟨h, if_neg h⟩

/-! ## What an operation of the serial line can do -/

/-- A property of states that the two events of the serial line keep, whatever value is returned with them. -/
structure KeptOnTheLine (P : State → Prop) : Prop where
  driveOut : ∀ s, P s → P (driveOut s)
  sampleRising : ∀ d s, P s → P (sampleRising d s)
  withResult : ∀ v s, P s → P (s.withResult v)

theorem KeptOnTheLine.sendBit {P : State → Prop} (k : KeptOnTheLine P) (d : Bool) (s : State) (h : P s) :
    P (sendBit d s).2 := by
  cases hd : s.config.risingOnlyIsr
  · rw [sendBit_dual hd]
    exact k.sampleRising _ _ (k.driveOut _ h)
  · rw [sendBit_rising hd]
    exact k.driveOut _ (k.sampleRising _ _ h)

theorem KeptOnTheLine.transmit {P : State → Prop} (k : KeptOnTheLine P) {bytes : List Byte} {s t : State} (h : P s)
    (he : transmit bytes s = .next t) : P t := by
  obtain ⟨_, he⟩ := whenReady_next he
  obtain ⟨_, he⟩ := whenControlled_next he
  cases he
  exact k.withResult _ _ (sendBytes_induction k.sendBit bytes s h)

/-- A command row is the sending of some bytes (log 1). -/
theorem exec_commandRow {i : Instr} (h : isCommandRow i = true) : ∃ bytes, ∀ s, exec i s = transmit bytes s := by
  cases i with
  | cmdInit f => exact ⟨_, fun _ => rfl⟩
  | cmdPrint f => exact ⟨_, fun _ => rfl⟩
  | cmdData f => exact ⟨_, fun _ => rfl⟩
  | cmdBreak f => exact ⟨_, fun _ => rfl⟩
  | cmdInquiry f => exact ⟨_, fun _ => rfl⟩
  | cmdUnknown c f => exact ⟨_, fun _ => rfl⟩
  | _ => cases h

theorem exec_onEdge_eq (c d : Bool) {s : State} (hr : Ready s) (hd : DualEdge s) :
    exec (.onEdge c d) s =
      if c then whenControlled s (.next (returnSout (sampleRising d s))) else .next (returnSout (driveOut s)) :=
  (whenReady_of_ready hr _).trans (if_neg (ne_true_of_eq_false hd))

theorem exec_onRising_eq (d : Bool) {s : State} (hr : Ready s) (hd : RisingOnly s) :
    exec (.onRising d) s = whenControlled s (.next (returnSout (driveOut (sampleRising d s)))) :=
  (whenReady_of_ready hr _).trans (if_pos hd)

/-- What completes was not refused (00_scope.md R15, R16). -/
theorem ready_of_exec_next {i : Instr} {s t : State} (hi : isInitEngine i = false) (h : exec i s = .next t) :
    Ready s ∧ ¬ WrongDiscipline i s := by
  have served : ¬ ∃ r, exec i s = .refused r := by simp [h]
  rw [exec_refused_iff, not_or, not_or] at served
  obtain ⟨hraw, hinit, hw⟩ := served
  exact ⟨⟨by simpa using hraw, by simpa [hi] using hinit⟩, hw⟩

theorem KeptOnTheLine.onEdge {P : State → Prop} (k : KeptOnTheLine P) {c d : Bool} {s t : State} (h : P s)
    (he : exec (.onEdge c d) s = .next t) : P t := by
  obtain ⟨hr, hw⟩ := ready_of_exec_next rfl he
  have hd : DualEdge s := by simpa [WrongDiscipline] using hw
  rw [exec_onEdge_eq c d hr hd] at he
  cases c with
  | true =>
    obtain ⟨_, he⟩ := whenControlled_next he
    cases he
    exact k.withResult _ _ (k.sampleRising d s h)
  | false =>
    cases he
    exact k.withResult _ _ (k.driveOut s h)

theorem KeptOnTheLine.onRising {P : State → Prop} (k : KeptOnTheLine P) {d : Bool} {s t : State} (h : P s)
    (he : exec (.onRising d) s = .next t) : P t := by
  obtain ⟨hr, hw⟩ := ready_of_exec_next rfl he
  have hd : RisingOnly s := by simpa [WrongDiscipline] using hw
  rw [exec_onRising_eq d hr hd] at he
  obtain ⟨_, he⟩ := whenControlled_next he
  cases he
  exact k.withResult _ _ (k.driveOut _ (k.sampleRising d s h))

/-- The operations of the edge port are events of the serial line. -/
theorem KeptOnTheLine.edgeOp {P : State → Prop} (k : KeptOnTheLine P) {i : Instr} {s t : State}
    (hi : isEdgeOp i = true) (h : P s) (he : exec i s = .next t) : P t := by
  cases i with
  | onEdge c d => exact k.onEdge h he
  | onRising d => exact k.onRising h he
  | _ => cases hi

theorem KeptOnTheLine.commandRow {P : State → Prop} (k : KeptOnTheLine P) {i : Instr} {s t : State}
    (hi : isCommandRow i = true) (h : P s) (he : exec i s = .next t) : P t := by
  obtain ⟨bytes, e⟩ := exec_commandRow hi
  exact k.transmit h (e s ▸ he)

/-! ## What a foreground operation can do -/

theorem Latches.le_refl (l : Latches) : l.le l := ⟨id, id, id, id, id, id, id⟩

theorem Latches.le_trans {a b c : Latches} (h : a.le b) (k : b.le c) : a.le c := by
  obtain ⟨h1, h2, h3, h4, h5, h6, h7⟩ := h
  obtain ⟨k1, k2, k3, k4, k5, k6, k7⟩ := k
  exact ⟨k1 ∘ h1, k2 ∘ h2, k3 ∘ h3, k4 ∘ h4, k5 ∘ h5, k6 ∘ h6, k7 ∘ h7⟩

/-- The states a foreground operation can lead to from `s` (44_host_interface.md R200–R234). -/
inductive Foreground (s : State) : Instr → State → Prop
  /-- R200. -/
  | initEngine (cap : Nat) :
      Foreground s (.initEngine cap) (hostReset ((s.withInitialised true).withFifo { s.fifo with cap := cap }))
  /-- R201. -/
  | reset : Foreground s .reset (hostReset s)
  /-- R202. -/
  | tick (e : Millis) : Foreground s (.tick e) (tickEffect e s)
  /-- R204. -/
  | takeOne : Foreground s .takeOne (ringTake s)
  /-- R205. -/
  | peek (k : Nat) : Foreground s (.peek k) (ringPeek k s)
  /-- A consume clears a latch and writes no other (R210–R216). -/
  | consume {i : Instr} (hi : isConsume i = true) (r : Bool) (l : Latches) (hl : l.le s.latches) :
      Foreground s i ((s.withLatches l).withResult (.bool r))
  /-- R220. -/
  | statusSetBit (k : BitVec 3) (v : Bool) :
      Foreground s (.statusSetBit k v) ((s.withSeq (s.seq.putBit k v)).withResult .none)
  /-- The operations that only return a value (R203, R221, R222, R230–R234). -/
  | value {i : Instr} (v : Result) : Foreground s i (s.withResult v)

theorem eq_of_whenReady_next {s t u : State} (h : whenReady s (.next u) = .next t) : t = u := by
  obtain ⟨_, h⟩ := whenReady_next h
  cases h
  rfl

theorem Foreground.of_next {i : Instr} {s t u : State} (he : exec i s = whenReady s (.next u)) (f : Foreground s i u)
    (h : exec i s = .next t) : Foreground s i t :=
  eq_of_whenReady_next (he ▸ h) ▸ f

theorem exec_foreground {i : Instr} {s t : State} (hc : isCommandRow i = false) (he : isEdgeOp i = false)
    (h : exec i s = .next t) : Foreground s i t := by
  cases i with
  | cmdInit f => cases hc
  | cmdPrint f => cases hc
  | cmdData f => cases hc
  | cmdBreak f => cases hc
  | cmdInquiry f => cases hc
  | cmdUnknown c f => cases hc
  | onEdge c d => cases he
  | onRising d => cases he
  | initEngine cap =>
    change execInitEngine cap s = .next t at h
    unfold execInitEngine at h
    split at h
    · cases h
    · cases h
      exact .initEngine cap
  | reset => exact .of_next rfl .reset h
  | tick e => exact .of_next rfl (.tick e) h
  | takeOne => exact .of_next rfl .takeOne h
  | peek k => exact .of_next rfl (.peek k) h
  | consumeInit => exact .of_next rfl (.consume rfl _ _ (by simp [Latches.le])) h
  | consumeData => exact .of_next rfl (.consume rfl _ _ (by simp [Latches.le])) h
  | consumePrint => exact .of_next rfl (.consume rfl _ _ (by simp [Latches.le])) h
  | consumeBreak => exact .of_next rfl (.consume rfl _ _ (by simp [Latches.le])) h
  | consumeInquiry => exact .of_next rfl (.consume rfl _ _ (by simp [Latches.le])) h
  | consumeDataEnd => exact .of_next rfl (.consume rfl _ _ (by simp [Latches.le])) h
  | consumePacketCompleted => exact .of_next rfl (.consume rfl _ _ (by simp [Latches.le])) h
  | statusSetBit k v => exact .of_next rfl (.statusSetBit k v) h
  | available => exact .of_next rfl (.value _) h
  | piSheets => exact .of_next rfl (.value _) h
  | piLfBefore => exact .of_next rfl (.value _) h
  | piLfAfter => exact .of_next rfl (.value _) h
  | piPalette => exact .of_next rfl (.value _) h
  | piDensity => exact .of_next rfl (.value _) h
  | statusGetBit k => exact .of_next rfl (.value _) h
  | statusWord => exact .of_next rfl (.value _) h

/-- A property kept on the line holds after an instruction from a state that has it, if the foreground operations see to
it too. -/
theorem KeptOnTheLine.exec {P : State → Prop} (k : KeptOnTheLine P) {i : Instr} {s t : State}
    (foreground : Foreground s i t → P t) (h : P s) (he : exec i s = .next t) : P t := by
  cases hc : isCommandRow i
  · cases hg : isEdgeOp i
    · exact foreground (exec_foreground hc hg he)
    · exact k.edgeOp hg h he
  · exact k.commandRow hc h he

/-! ## The status bits of the foreground -/

theorem getStatusBit_zero (k : BitVec 3) : getStatusBit Sequencer.zero.status k = false := by
  simp [getStatusBit, Sequencer.zero]

/-- Writing a bit below bit 4 leaves the bits of the foreground (10_state.md R45). -/
theorem getStatusBit_putBit_low {k i : BitVec 3} (hk : 4#3 ≤ k) (hi : ¬ 4#3 ≤ i) (q : Sequencer) (v : Bool) :
    getStatusBit (q.putBit i v).status k = getStatusBit q.status k := by
  have ne : k ≠ i := by
    rintro rfl
    exact hi hk
  rw [putBit_status, getStatusBit_putStatusBit, if_neg ne]

/-- A bit of the foreground that ChecksumDone leaves set was set before: the pre-dummy actions set none (R45). -/
theorem checksumSeq_foregroundBit {k : BitVec 3} (hk : 4#3 ≤ k) {s : State}
    (h : getStatusBit (checksumSeq s).status k = true) : getStatusBit s.seq.status k = true := by
  have compared := preDummy_status_high _ _ _ k hk h
  obtain e | e := comparedSeq_cases s
  · rwa [e] at compared
  · rwa [e, getStatusBit_putBit_low hk (by decide)] at compared

theorem RisingEdge.foregroundBit {k : BitVec 3} (hk : 4#3 ≤ k) {d : Bool} {s t : State} (e : RisingEdge d s t)
    (h : getStatusBit t.seq.status k = true) : getStatusBit s.seq.status k = true := by
  cases e with
  | scan hs => obtain ⟨_, e⟩ | ⟨_, e⟩ := syncStep_cases d s <;> rw [e] at h <;> exact h
  | within hs hm => exact h
  | header1 hs hm hp => exact h
  | header2 hs hm hp =>
    obtain ⟨_, _, e⟩ | ⟨_, e⟩ | ⟨_, e⟩ := header2Done_cases (lastSampled d s) <;> rw [e] at h <;> exact h
  | payload hs hm hp =>
    have taken := (payloadTaken_frame (lastSampled d s)).seq
    obtain ⟨_, e⟩ | ⟨_, e⟩ := payloadDone_cases (lastSampled d s) <;> rw [e, armTransfer_seq, taken] at h <;> exact h
  | checksum hs hm hp =>
    rw [checksumDone_eq] at h
    exact checksumSeq_foregroundBit (s := lastSampled d s) hk h
  | dummy hs hm hp =>
    obtain ⟨_, e⟩ | ⟨_, e⟩ := dummyDone_cases (lastSampled d s)
    · rw [e] at h
      exact postDummy_status_high _ _ _ k hk ▸ h
    · rw [e, cancelReset_seq, getStatusBit_zero] at h
      cases h

/-- No event of the serial line sets a bit of the foreground, so what follows from such a bit goes on following from it
(R45, D37). -/
theorem keptOnTheLine_foregroundBit {k : BitVec 3} (hk : 4#3 ≤ k) (Q : Prop) :
    KeptOnTheLine (fun t => getStatusBit t.seq.status k = true → Q) where
  driveOut _ h := h
  sampleRising d u h := fun hb => h ((risingEdge_sampleRising d u).foregroundBit hk hb)
  withResult _ _ h := h

theorem Foreground.foregroundBit {i : Instr} {k : BitVec 3} (hk : 4#3 ≤ k) {s t : State} (f : Foreground s i t)
    (h : getStatusBit t.seq.status k = true) : getStatusBit s.seq.status k = true ∨ i = .statusSetBit k true := by
  cases f with
  | initEngine cap => simp [getStatusBit_zero] at h
  | reset => simp [getStatusBit_zero] at h
  | tick e =>
    obtain ⟨_, f⟩ | ⟨_, _, f⟩ | ⟨_, f⟩ := tickEffect_cases e s <;> rw [f] at h
    · exact .inl h
    · simp [getStatusBit_zero] at h
    · exact .inl h
  | takeOne =>
    obtain ⟨_, f⟩ | ⟨_, _, f⟩ | ⟨_, _, _, _, f⟩ := ringTake_cases s <;> rw [f] at h
    · exact .inl h
    · rw [getStatusBit_putBit_low hk (by decide)] at h
      exact .inl h
    · exact .inl h
  | peek n => obtain ⟨_, f⟩ | ⟨_, f⟩ := ringPeek_cases n s <;> rw [f] at h <;> exact .inl h
  | consume hi r l hl => exact .inl h
  | statusSetBit j v =>
    simp only [State.withResult_seq, State.withSeq_seq, putBit_status, getStatusBit_putStatusBit] at h
    split at h
    case isTrue e => exact .inr (by rw [e, h])
    case isFalse => exact .inl h
  | value v => exact .inl h

/-! ## The latches -/

theorem packetEnded_latches_le (s : State) : s.latches.le (packetEnded s).latches := by
  obtain ⟨h1, h2, h3, h4, h5, h6, _⟩ := raiseFlag_le s.packet.command s.packet.dataLength s.latches
  exact ⟨h1, h2, h3, h4, h5, h6, fun _ => rfl⟩

/-- A rising edge clears no latch (10_state.md R50): CancelReset keeps them (70_reset_and_hazards.md R272). -/
theorem RisingEdge.latches_le {d : Bool} {s t : State} (e : RisingEdge d s t) : s.latches.le t.latches := by
  have refl := Latches.le_refl s.latches
  cases e with
  | scan hs => obtain ⟨_, e⟩ | ⟨_, e⟩ := syncStep_cases d s <;> rw [e] <;> exact refl
  | within hs hm => exact refl
  | header1 hs hm hp => exact refl
  | header2 hs hm hp =>
    obtain ⟨_, _, e⟩ | ⟨_, e⟩ | ⟨_, e⟩ := header2Done_cases (lastSampled d s) <;> rw [e] <;> exact refl
  | payload hs hm hp =>
    have taken := (payloadTaken_frame (lastSampled d s)).latches
    obtain ⟨_, e⟩ | ⟨_, e⟩ := payloadDone_cases (lastSampled d s) <;> rw [e, armTransfer_latches, taken] <;> exact refl
  | checksum hs hm hp => exact refl
  | dummy hs hm hp =>
    obtain ⟨_, e⟩ | ⟨_, e⟩ := dummyDone_cases (lastSampled d s) <;> rw [e] <;> exact packetEnded_latches_le (lastSampled d s)

theorem keptOnTheLine_latches_le (s : State) : KeptOnTheLine (fun t => s.latches.le t.latches) where
  driveOut _ h := h
  sampleRising d u h := Latches.le_trans h (risingEdge_sampleRising d u).latches_le
  withResult _ _ h := h

/-- No foreground operation sets a latch, and only a consume and HostReset clear one (R50, R271). -/
theorem Foreground.latches {i : Instr} {s t : State} (f : Foreground s i t) :
    t.latches.le s.latches ∧ (isConsume i = false ∧ isHostReset i = false → s.latches.le t.latches) := by
  have same : ∀ {u : State}, u.latches = s.latches → u.latches.le s.latches ∧ s.latches.le u.latches := by
    intro u e
    rw [e]
    exact ⟨Latches.le_refl _, Latches.le_refl _⟩
  have zero : Latches.zero.le s.latches := by simp [Latches.le, Latches.zero]
  cases f with
  | initEngine cap => exact ⟨zero, fun h => by cases h.2⟩
  | reset => exact ⟨zero, fun h => by cases h.2⟩
  | tick e =>
    obtain ⟨_, f⟩ | ⟨_, _, f⟩ | ⟨_, f⟩ := tickEffect_cases e s <;> rw [f] <;> exact (same rfl).imp_right fun h _ => h
  | takeOne =>
    obtain ⟨_, f⟩ | ⟨_, _, f⟩ | ⟨_, _, _, _, f⟩ := ringTake_cases s <;> rw [f] <;>
      exact (same rfl).imp_right fun h _ => h
  | peek n => obtain ⟨_, f⟩ | ⟨_, f⟩ := ringPeek_cases n s <;> rw [f] <;> exact (same rfl).imp_right fun h _ => h
  | consume hi r l hl => exact ⟨hl, fun h => by simp [hi] at h⟩
  | statusSetBit j v => exact (same rfl).imp_right fun h _ => h
  | value v => exact (same rfl).imp_right fun h _ => h

/-! ## The invariant, in two parts -/

/-- The part of `Inv` about the line: shifter, synchroniser and packet state. -/
structure LinkInv (s : State) : Prop where
  control : controlPoint s = true
  mask : MaskOk s
  line : LineOk s
  window : WindowOk s

/-- The counters `q` are within what the commands of `cfg` load into them (10_state.md R54). -/
def CountersWithin (cfg : Config) (q : Sequencer) : Prop :=
  q.dataPacketsRemaining ≤ cfg.dataPacketCount ∧ q.untransmittedRemaining ≤ cfg.untransmittedCount ∧
    q.busyRemaining ≤ cfg.busyCount

/-- The part of `Inv` about the payload: FIFO, counters, index and routing. -/
structure StoreInv (s : State) : Prop where
  occupancy : OccupancyOk s
  staged : StagedOk s
  counters : CountersWithin s.config s.seq
  index : IndexOk s
  payload : PayloadOk s

theorem inv_iff (s : State) : Inv s ↔ LinkInv s ∧ StoreInv s :=
  ⟨fun ⟨hc, hm, ho, hs, hq, hi, hp, hl, hw⟩ => ⟨⟨hc, hm, hl, hw⟩, ⟨ho, hs, hq, hi, hp⟩⟩,
   fun ⟨⟨hc, hm, hl, hw⟩, ⟨ho, hs, hq, hi, hp⟩⟩ => ⟨hc, hm, ho, hs, hq, hi, hp, hl, hw⟩⟩

/-! ## The line -/

/-- A transfer with nothing to send leaves a low line low (40_bit_shifter.md R131). -/
theorem beginTransfer_quiet (m : Mode) {h : Shifter} (low : h.sout = false) :
    (beginTransfer m 0#16 h).tx = 0#16 ∧ (beginTransfer m 0#16 h).sout = false := by
  cases m with
  | idle => exact ⟨rfl, rfl⟩
  | byte => exact ⟨rfl, low⟩
  | wordBE => exact ⟨rfl, low⟩
  | wordLE => exact ⟨rfl, low⟩

theorem eq_wordBE_of_pairOk_dummy {m : Mode} (h : pairOk .dummy m = true) : m = .wordBE := by
  cases m with
  | wordBE => rfl
  | _ => cases h

/-- An armed transfer meets the line's invariant: outside Dummy nothing to send on a low line, in Dummy the device ID first
(40_bit_shifter.md R131, R141). -/
theorem linkInv_armTransfer {p : PState} {m : Mode} {w : Half} {s : State}
    (hs : s.sync = { window := 0#16, synced := true }) (hp : pairOk p m = true)
    (quiet : p ≠ .dummy → w = 0#16 ∧ s.shifter.sout = false) (device : p = .dummy → hiByte w = deviceId) :
    LinkInv (armTransfer p m w s) where
  control := controlPoint_armed (s := s) (by rw [armTransfer_sync, hs]) rfl rfl hp
  mask := by cases m <;> simp [MaskOk, beginTransfer, startMask, legalMasks]
  line := by
    refine ⟨fun hd => ?_, fun hd => ?_⟩
    · obtain ⟨rfl, low⟩ := quiet hd
      exact beginTransfer_quiet m low
    · have hd : p = .dummy := hd
      obtain rfl : m = .wordBE := eq_wordBE_of_pairOk_dummy (hd ▸ hp)
      exact device hd
  window := by simp [WindowOk, hs, magic]

/-- At rest the line's invariant asks for no more than that the window holds no sync word (10_state.md R53 (a)). -/
theorem linkInv_at_rest {s : State} (hh : s.shifter = .zero) (hs : s.sync.synced = false)
    (hw : s.sync.window ≠ magic) (hp : s.packet.pstate = .header1) : LinkInv s where
  control := by simp [controlPoint, hs, hh, hp, Shifter.zero]
  mask := by simp [MaskOk, hh, Shifter.zero, legalMasks]
  line := by simp [LineOk, hp, hh, Shifter.zero]
  window := by simp [WindowOk, hs, hw]

/-- A legal mask that is not the last of its transfer is followed by a legal one (10_state.md R35). -/
theorem shiftRight_mem_legalMasks {m : Mode} {x : Half} (h : x ∈ legalMasks m) (hx : x >>> 1 ≠ 0#16) :
    x >>> 1 ∈ legalMasks m := by
  have all : (legalMasks m).all (fun x => x >>> 1 == 0#16 || (legalMasks m).contains (x >>> 1)) = true := by
    cases m <;> decide
  simpa [hx] using List.all_eq_true.1 all x h

theorem LinkInv.sampleBit {s : State} (h : LinkInv s) (d : Bool) (hs : s.sync.synced = true)
    (hm : s.shifter.mask >>> 1 ≠ 0#16) : LinkInv (s.withShifter (sampleBit d s.shifter)) where
  control := (controlPoint_synced (by exact hs)).2 ⟨hm, ((controlPoint_synced hs).1 h.control).2⟩
  mask := shiftRight_mem_legalMasks h.mask hm
  line := h.line
  window := h.window

/-- A drive keeps the line low where there is nothing to send (40_bit_shifter.md R134, R141). -/
theorem LinkInv.driveOut {s : State} (h : LinkInv s) : LinkInv (driveOut s) where
  control := h.control
  mask := h.mask
  line := ⟨fun hp => ⟨(h.line.1 hp).1, driveLevel_of_tx (h.line.1 hp).1⟩, h.line.2⟩
  window := h.window

theorem LinkInv.syncStep {s : State} (h : LinkInv s) (d : Bool) (hs : s.sync.synced = false) :
    LinkInv (syncStep d s) := by
  obtain ⟨hmode, hmask, hp⟩ := (controlPoint_unsynced hs).1 h.control
  have low : s.shifter.sout = false := (h.line.1 (by simp [hp])).2
  obtain ⟨_, e⟩ | ⟨hw, e⟩ := syncStep_cases d s <;> rw [e]
  · obtain ⟨hc, hm, hl, hw⟩ := linkInv_armTransfer (p := .header1) (m := .wordBE)
      (s := s.withSync { window := 0#16, synced := true }) rfl rfl (fun _ => ⟨rfl, low⟩) nofun
    exact ⟨hc, hm, hl, hw⟩
  · exact ⟨(controlPoint_unsynced (by exact hs)).2 ⟨hmode, hmask, hp⟩, h.mask, h.line, by simp [WindowOk, hs, hw]⟩

/-- A rising edge keeps the invariant of the line. -/
theorem RisingEdge.linkInv {d : Bool} {s t : State} (e : RisingEdge d s t) (h : LinkInv s) : LinkInv t := by
  have low : s.packet.pstate ≠ .dummy → s.shifter.sout = false := fun hp => (h.line.1 hp).2
  have sync : s.sync.synced = true → s.sync = { window := 0#16, synced := true } := by
    intro hs
    rw [← hs, ← h.window.1 hs]
  cases e with
  | scan hs => exact h.syncStep d hs
  | within hs hm => exact h.sampleBit d hs hm
  | header1 hs hm hp =>
    exact linkInv_armTransfer (sync hs) rfl (fun _ => ⟨rfl, low (by simp [hp])⟩) nofun
  | header2 hs hm hp =>
    have hl := low (by simp [hp])
    obtain ⟨_, _, e⟩ | ⟨_, e⟩ | ⟨_, e⟩ := header2Done_cases (lastSampled d s) <;> rw [e] <;>
      exact linkInv_armTransfer (sync hs) rfl (fun _ => ⟨rfl, hl⟩) nofun
  | payload hs hm hp =>
    have taken := payloadTaken_frame (lastSampled d s)
    have hl : (payloadTaken (lastSampled d s)).shifter.sout = false := by
      rw [taken.shifter]
      exact low (by simp [hp])
    obtain ⟨_, e⟩ | ⟨_, e⟩ := payloadDone_cases (lastSampled d s) <;> rw [e] <;>
      exact linkInv_armTransfer (taken.sync.trans (sync hs)) rfl (fun _ => ⟨rfl, hl⟩) nofun
  | checksum hs hm hp =>
    exact linkInv_armTransfer (sync hs) rfl (fun k => absurd rfl k) (fun _ => hiByte_statusWordOf _)
  | dummy hs hm hp =>
    obtain ⟨_, e⟩ | ⟨_, e⟩ := dummyDone_cases (lastSampled d s) <;> rw [e]
    · exact linkInv_at_rest rfl rfl h.window.2 rfl
    · exact linkInv_at_rest rfl rfl (by rw [cancelReset_sync]; decide) rfl

/-! ## The payload -/

theorem zero_le_byte (b : Byte) : 0#8 ≤ b := BitVec.le_def.2 (Nat.zero_le _)

theorem countersWithin_zero (cfg : Config) : CountersWithin cfg .zero := ⟨zero_le_byte _, zero_le_byte _, zero_le_byte _⟩

theorem sub_one_le_of_le {a b : Byte} (h : a ≤ b) (h0 : a ≠ 0#8) : a - 1#8 ≤ b := by bv_omega

/-- A pre-dummy action loads a counter with what the configuration gives, or counts it down (43_commands.md R180–R185). -/
theorem CountersWithin.preDummy {cfg : Config} {q : Sequencer} (h : CountersWithin cfg q) (c : Byte) :
    CountersWithin cfg (preDummy cfg c q) := by
  obtain ⟨hd, hu, hb⟩ := h
  obtain ⟨d, u, b⟩ := preDummy_counters cfg c q
  refine ⟨?_, ?_, ?_⟩
  · obtain e | e := d <;> rw [e]
    · exact hd
    · exact BitVec.le_refl _
  · obtain e | e | e | ⟨h0, e⟩ := u <;> rw [e]
    · exact hu
    · exact BitVec.le_refl _
    · exact zero_le_byte _
    · exact sub_one_le_of_le hu h0
  · obtain e | e | e | ⟨h0, e⟩ := b <;> rw [e]
    · exact hb
    · exact BitVec.le_refl _
    · exact zero_le_byte _
    · exact sub_one_le_of_le hb h0

theorem CountersWithin.postDummy {cfg : Config} {q : Sequencer} (h : CountersWithin cfg q) (c : Byte) (len : Half) :
    CountersWithin cfg (postDummy c len q) := by
  obtain ⟨hd, hu, hb⟩ := h
  obtain ⟨u, b, e | ⟨h0, e⟩⟩ := postDummy_counters c len q <;> refine ⟨?_, u ▸ hu, b ▸ hb⟩ <;> rw [e]
  · exact hd
  · exact sub_one_le_of_le hd h0

theorem CountersWithin.checksumSeq {s : State} (h : CountersWithin s.config s.seq) :
    CountersWithin s.config (checksumSeq s) := by
  refine CountersWithin.preDummy ?_ _
  obtain e | e := comparedSeq_cases s <;> rw [e] <;> exact h

/-- Enqueueing a byte respects the capacity (20_memory.md R74). -/
theorem ringEnqueue_occupancy {f : Fifo} (h : f.committed.length + f.staged.length ≤ f.cap) (stage : Bool) (b : Byte) :
    (ringEnqueue stage b f).committed.length + (ringEnqueue stage b f).staged.length ≤ (ringEnqueue stage b f).cap := by
  obtain ⟨_, e⟩ | ⟨room, _, e⟩ | ⟨room, _, e⟩ := ringEnqueue_cases stage b f <;> rw [e]
  · exact h
  · simp only [List.length_append, List.length_singleton]
    omega
  · simp only [List.length_append, List.length_singleton]
    omega

theorem ringEnqueue_false_staged (b : Byte) (f : Fifo) : (ringEnqueue false b f).staged = f.staged := by
  obtain ⟨_, e⟩ | ⟨_, h, _⟩ | ⟨_, _, e⟩ := ringEnqueue_cases false b f
  · rw [e]
  · cases h
  · rw [e]

/-- The staging gate respects the capacity, and leaves nothing staged where nothing is staged with staging off (R170). -/
theorem settleStaged_fifo {cfg : Config} {f : Fifo} (h : f.committed.length + f.staged.length ≤ f.cap)
    (hs : cfg.stageOnChecksum = false → f.staged = []) (p : Packet) :
    (settleStaged cfg p f).committed.length + (settleStaged cfg p f).staged.length ≤ (settleStaged cfg p f).cap ∧
      (settleStaged cfg p f).staged = [] := by
  obtain ⟨off, e⟩ | ⟨_, _, e⟩ | ⟨_, _, e⟩ := settleStaged_cases cfg p f <;> rw [e]
  · exact ⟨h, hs off⟩
  · exact ⟨by simpa using h, rfl⟩
  · exact ⟨(Nat.add_le_add_left (Nat.zero_le _) _).trans h, rfl⟩

/-- Past Header2 bytes may be staged, where staging is on (10_state.md R54). -/
theorem stagedOk_past_header2 {s : State} (h1 : s.packet.pstate ≠ .header1) (h2 : s.packet.pstate ≠ .header2)
    (h : s.config.stageOnChecksum = false → s.fifo.staged = []) : StagedOk s := by
  rintro (k | k | off)
  · exact absurd k h1
  · exact absurd k h2
  · exact h off

/-- In Header1 the payload's invariant asks for nothing of the packet's registers. -/
theorem storeInv_of_header1 {s : State} (hp : s.packet.pstate = .header1) (ho : OccupancyOk s) (hs : s.fifo.staged = [])
    (hq : CountersWithin s.config s.seq) : StoreInv s where
  occupancy := ho
  staged := fun _ => hs
  counters := hq
  index := by simp [IndexOk, hp]
  payload := by simp [PayloadOk, hp]

theorem StoreInv.header1Done {s : State} (h : StoreInv s) (hp : s.packet.pstate = .header1) :
    StoreInv (header1Done s) where
  occupancy := h.occupancy
  staged := fun _ => h.staged (.inl hp)
  counters := h.counters
  index := ⟨fun _ => rfl, nofun⟩
  payload := ⟨nofun, nofun⟩

/-- Header2 routes the packet, and the index, still 0, is below any length but 0 (42_packet_fsm.md R162). -/
theorem StoreInv.header2Done {s : State} (h : StoreInv s) (hp : s.packet.pstate = .header2) :
    StoreInv (header2Done s) := by
  have staged : s.fifo.staged = [] := h.staged (.inr (.inl hp))
  have below : ∀ len : Half, len ≠ 0#16 → s.packet.dataIndex < len := by
    intro len hn
    rw [h.index.1 hp]
    bv_omega
  obtain ⟨hc, hn, e⟩ | ⟨hc, e⟩ | ⟨hc, e⟩ := header2Done_cases s <;> rw [e]
  · exact ⟨h.occupancy, fun _ => staged, h.counters, ⟨nofun, fun _ => below _⟩,
      ⟨fun _ => .inl ⟨hc, hn⟩, fun _ (k : classify s.packet.command = .print) => by simp [hc] at k⟩⟩
  · exact ⟨h.occupancy, fun _ => staged, h.counters, ⟨nofun, fun _ => below _⟩,
      ⟨fun _ => .inr hc, fun _ _ => clampPrint_le _⟩⟩
  · exact ⟨h.occupancy, fun _ => staged, h.counters, ⟨nofun, nofun⟩, ⟨nofun, fun _ k => absurd k hc⟩⟩

theorem StoreInv.payloadTaken_occupancy {s : State} (h : StoreInv s) : OccupancyOk (payloadTaken s) := by
  unfold OccupancyOk
  obtain e | e := (payloadTaken_frame s).fifo <;> rw [e]
  · exact h.occupancy
  · exact ringEnqueue_occupancy h.occupancy _ _

theorem StoreInv.payloadTaken_staged {s : State} (h : StoreInv s) (off : s.config.stageOnChecksum = false) :
    (payloadTaken s).fifo.staged = [] := by
  have before : s.fifo.staged = [] := h.staged (.inr (.inr off))
  obtain e | e := (payloadTaken_frame s).fifo <;> rw [e]
  · exact before
  · rw [off, ringEnqueue_false_staged, before]

/-- A payload byte brings the index one up, and Payload ends where it meets the length (R165). -/
theorem StoreInv.payloadDone {s : State} (h : StoreInv s) (hp : s.packet.pstate = .payload) :
    StoreInv (payloadDone s) := by
  have taken := payloadTaken_frame s
  have counters : CountersWithin (payloadTaken s).config (payloadTaken s).seq := by
    rw [taken.config, taken.seq]
    exact h.counters
  have staged : (payloadTaken s).config.stageOnChecksum = false → (payloadTaken s).fifo.staged = [] := by
    rw [taken.config]
    exact h.payloadTaken_staged
  have packet : ∀ p m, (armTransfer p m 0#16 (payloadTaken s)).packet = { s.packet with
      pstate := p, computedChecksum := s.packet.computedChecksum + zext16 (rxByte s.shifter),
      dataIndex := s.packet.dataIndex + 1#16 } := by
    intro p m
    rw [armTransfer_packet, taken.packet]
  have clamped : classify s.packet.command = .print → s.packet.dataLength ≤ 4#16 := h.payload.2 (.inl hp)
  obtain ⟨hi, e⟩ | ⟨hi, e⟩ := payloadDone_cases s <;> rw [e]
  · refine ⟨h.payloadTaken_occupancy, stagedOk_past_header2 nofun nofun staged, counters, ⟨nofun, nofun⟩, ?_⟩
    rw [PayloadOk, packet]
    exact ⟨nofun, fun _ => clamped⟩
  · refine ⟨h.payloadTaken_occupancy, stagedOk_past_header2 nofun nofun staged, counters, ?_, ?_⟩
    · rw [IndexOk, packet]
      refine ⟨nofun, fun _ hn => ?_⟩
      have below := h.index.2 hp hn
      show s.packet.dataIndex + 1#16 < s.packet.dataLength
      bv_omega
    · rw [PayloadOk, packet]
      exact ⟨fun _ => h.payload.1 hp, fun _ => clamped⟩

theorem StoreInv.checksumDone {s : State} (h : StoreInv s) (hp : s.packet.pstate = .checksum) :
    StoreInv (checksumDone s) := by
  rw [checksumDone_eq]
  exact ⟨h.occupancy, stagedOk_past_header2 nofun nofun fun off => h.staged (.inr (.inr off)), h.counters.checksumSeq,
    ⟨nofun, nofun⟩, ⟨nofun, fun _ => h.payload.2 (.inr (.inl hp))⟩⟩

theorem StoreInv.dummyDone {s : State} (h : StoreInv s) : StoreInv (dummyDone s) := by
  obtain ⟨_, e⟩ | ⟨_, e⟩ := dummyDone_cases s <;> rw [e]
  · obtain ⟨fits, none⟩ := settleStaged_fifo h.occupancy (fun off => h.staged (.inr (.inr off))) s.packet
    exact storeInv_of_header1 rfl fits none (h.counters.postDummy _ _)
  · exact storeInv_of_header1 rfl (Nat.zero_le _) rfl (countersWithin_zero _)

theorem StoreInv.syncStep {s : State} (h : StoreInv s) (d : Bool) (hp : s.packet.pstate = .header1) :
    StoreInv (syncStep d s) := by
  obtain ⟨_, e⟩ | ⟨_, e⟩ := syncStep_cases d s <;> rw [e]
  · exact storeInv_of_header1 rfl h.occupancy (h.staged (.inl hp)) h.counters
  · exact ⟨h.occupancy, h.staged, h.counters, h.index, h.payload⟩

/-- A rising edge keeps the invariant of the payload. -/
theorem RisingEdge.storeInv {d : Bool} {s t : State} (e : RisingEdge d s t) (hc : controlPoint s = true)
    (h : StoreInv s) : StoreInv t := by
  have sampled : StoreInv (lastSampled d s) := ⟨h.occupancy, h.staged, h.counters, h.index, h.payload⟩
  cases e with
  | scan hs =>
    obtain ⟨_, _, hp⟩ := (controlPoint_unsynced hs).1 hc
    exact h.syncStep d hp
  | within hs hm => exact ⟨h.occupancy, h.staged, h.counters, h.index, h.payload⟩
  | header1 hs hm hp => exact sampled.header1Done hp
  | header2 hs hm hp => exact sampled.header2Done hp
  | payload hs hm hp => exact sampled.payloadDone hp
  | checksum hs hm hp => exact sampled.checksumDone hp
  | dummy hs hm hp => exact sampled.dummyDone

/-! ## Every step keeps the invariant -/

/-- Between packets, with an empty FIFO and counters at 0: where the two resets leave the engine
(70_reset_and_hazards.md R271, R272). -/
theorem inv_of_reset {s : State} (hh : s.shifter = .zero) (hs : s.sync = .zero) (hp : s.packet = .zero)
    (hq : s.seq = .zero) (hf : s.fifo = ringClear s.fifo) : Inv s := by
  have pstate : s.packet.pstate = .header1 := by rw [hp]; rfl
  refine (inv_iff s).2 ⟨linkInv_at_rest hh (by rw [hs]; rfl) (by rw [hs]; decide) pstate, ?_⟩
  refine storeInv_of_header1 pstate ?_ (by rw [hf]; rfl) (by rw [hq]; exact countersWithin_zero _)
  rw [OccupancyOk, hf]
  exact Nat.zero_le _

theorem inv_hostReset (s : State) : Inv (hostReset s) := inv_of_reset rfl rfl rfl rfl rfl

theorem inv_cancelReset (r : CancelReason) (s : State) : Inv (cancelReset r s) := inv_of_reset rfl rfl rfl rfl rfl

theorem keptOnTheLine_inv : KeptOnTheLine Inv where
  driveOut s h := by
    obtain ⟨link, store⟩ := (inv_iff s).1 h
    exact (inv_iff _).2 ⟨link.driveOut, ⟨store.occupancy, store.staged, store.counters, store.index, store.payload⟩⟩
  sampleRising d s h := by
    obtain ⟨link, store⟩ := (inv_iff s).1 h
    have edge := risingEdge_sampleRising d s
    exact (inv_iff _).2 ⟨edge.linkInv link, edge.storeInv link.control store⟩
  withResult _ _ h := h

/-- The invariant asks of the FIFO that the committed bytes fit beside the staged ones: taking some away keeps it. -/
theorem Inv.withCommitted {s : State} (h : Inv s) {bytes : List Byte} (hl : bytes.length ≤ s.fifo.committed.length) :
    Inv (s.withFifo { s.fifo with committed := bytes }) := by
  obtain ⟨link, store⟩ := (inv_iff s).1 h
  refine (inv_iff _).2 ⟨⟨link.control, link.mask, link.line, link.window⟩, ?_⟩
  exact ⟨(Nat.add_le_add_right hl _).trans store.occupancy, store.staged, store.counters, store.index, store.payload⟩

theorem inv_ringTake {s : State} (h : Inv s) : Inv (ringTake s) := by
  obtain ⟨_, e⟩ | ⟨_, _, e⟩ | ⟨b, c, rest, hf, e⟩ := ringTake_cases s <;> rw [e]
  · exact h
  · exact h.withCommitted (bytes := []) (Nat.zero_le _)
  · exact h.withCommitted (bytes := c :: rest) (by simp [hf])

/-- A foreground operation keeps the invariant: it resets the engine, takes bytes away, or writes no field the invariant
speaks of. -/
theorem Foreground.inv {i : Instr} {s t : State} (f : Foreground s i t) (h : Inv s) : Inv t := by
  cases f with
  | initEngine cap => exact inv_hostReset _
  | reset => exact inv_hostReset _
  | tick e =>
    obtain ⟨_, f⟩ | ⟨_, _, f⟩ | ⟨_, f⟩ := tickEffect_cases e s <;> rw [f]
    · exact h
    · exact inv_cancelReset .timeout _
    · exact h
  | takeOne => exact inv_ringTake h
  | peek k => obtain ⟨_, f⟩ | ⟨_, f⟩ := ringPeek_cases k s <;> rw [f] <;> exact h
  | consume hi r l hl => exact h
  | statusSetBit k v => exact h
  | value v => exact h

theorem exec_keeps_inv {i : Instr} {s t : State} (h : Inv s) (he : exec i s = .next t) : Inv t :=
  keptOnTheLine_inv.exec (fun f => f.inv h) h he

theorem step_keeps_inv {s t : State} (h : Inv s) (he : step s = .next t) : Inv t := by
  obtain ⟨hc, _⟩ := whenControlled_next he
  cases hq : s.inputs with
  | nil =>
    rw [step_nil hc hq] at he
    cases he
    exact h
  | cons x rest =>
    have taken : Inv { s with inputs := rest } := h
    cases hd : decode x with
    | ok i =>
      rw [step_cons_ok hc hq hd] at he
      exact exec_keeps_inv taken he
    | error e =>
      rw [step_cons_error hc hq hd] at he
      cases x with
      | wire bytes => exact keptOnTheLine_inv.transmit taken he
      | request r => cases he

/-! ## A broken control point -/

theorem transmit_broken {s : State} (hr : Ready s) (hc : controlPoint s = false) (bytes : List Byte) :
    transmit bytes s = .fault .brokenControlPoint := by
  rw [transmit, whenReady_of_ready hr, whenControlled_not hc]

/-! ## The obligations -/

/-- Settles O8: the invariant in two parts, line and payload, each kept by every case of a rising edge. -/
theorem stepKeepsTheInvariant : Obligations.StepKeepsTheInvariant :=
  fun _ _ h he => step_keeps_inv h he

/-- Settles O14: no answer of `exec_guarded` writes CAP or `initialised`. -/
theorem onlyInitEngineWritesCapAndInitialised : Obligations.OnlyInitEngineWritesCapAndInitialised :=
  fun _ _ _ hi he => ⟨(exec_sameInstance hi he).cap, (exec_sameInstance hi he).initialised⟩

/-- Settles O15: no event of the serial line sets such a bit, and of the foreground operations only STATUS_SET_BIT does. -/
theorem engineNeverSetsTheForegroundBits : Obligations.EngineNeverSetsTheForegroundBits := by
  intro i s t k hk he hb
  exact (keptOnTheLine_foregroundBit hk _).exec (fun f => f.foregroundBit hk) .inl he hb

/-- Settles O16: an event of the serial line clears no latch; a foreground operation sets none, and keeps them all unless it
is a consume or ends in HostReset. -/
theorem latchesClearedOnlyByConsumeAndHostReset : Obligations.LatchesClearedOnlyByConsumeAndHostReset := by
  intro i s t he
  refine ⟨fun keeps => ?_, fun ⟨hc, hg⟩ => (exec_foreground hc hg he).latches.1⟩
  exact (keptOnTheLine_latches_le s).exec (fun f => f.latches.2 keeps) (Latches.le_refl _) he

/-- Settles O7: `step`, a rising edge and a frame stand behind `whenControlled`. -/
theorem noStepFromABrokenControlPoint : Obligations.NoStepFromABrokenControlPoint := by
  intro s hc
  refine ⟨whenControlled_not hc _, fun hr hd d => ?_, fun hr hd d => ?_, fun hr i hi => ?_⟩
  · rw [exec_onEdge_eq true d hr hd]
    exact whenControlled_not hc _
  · rw [exec_onRising_eq d hr hd]
    exact whenControlled_not hc _
  · obtain ⟨bytes, e⟩ := exec_commandRow hi
    rw [e]
    exact transmit_broken hr hc bytes

end Sys2Proof.Machine
end

section
/-! What one input does to the payload memories (spec/20_memory.md R72, R78–R80, R87): who writes the print instruction, what
an edge operation does to the FIFO, what TAKE_ONE and PEEK return. -/

namespace Sys2Proof.Machine

/-! ## What an edge operation can do -/

/-- What an edge operation leaves: after a falling edge the driven line, after a rising edge the state `RisingEdge` names, under
rising-only with a drive behind it (40_bit_shifter.md R139, R140). -/
inductive EdgeAnswer (s : State) : State → Prop
  | falling : EdgeAnswer s (returnSout (driveOut s))
  | rising {d : Bool} {u : State} (e : RisingEdge d s u) : EdgeAnswer s (returnSout u)
  | risingThenDrive {d : Bool} {u : State} (e : RisingEdge d s u) : EdgeAnswer s (returnSout (driveOut u))

theorem exec_onEdge_answer {c d : Bool} {s t : State} (he : exec (.onEdge c d) s = .next t) : EdgeAnswer s t := by
  obtain ⟨hr, hw⟩ := ready_of_exec_next rfl he
  rw [exec_onEdge_eq c d hr (by simpa [WrongDiscipline] using hw)] at he
  cases c with
  | true =>
    obtain ⟨_, he⟩ := whenControlled_next he
    cases he
    exact .rising (risingEdge_sampleRising d s)
  | false =>
    cases he
    exact .falling

theorem exec_onRising_answer {d : Bool} {s t : State} (he : exec (.onRising d) s = .next t) : EdgeAnswer s t := by
  obtain ⟨hr, hw⟩ := ready_of_exec_next rfl he
  rw [exec_onRising_eq d hr (by simpa [WrongDiscipline] using hw)] at he
  obtain ⟨_, he⟩ := whenControlled_next he
  cases he
  exact .risingThenDrive (risingEdge_sampleRising d s)

theorem exec_edgeOp_answer {i : Instr} {s t : State} (hi : isEdgeOp i = true) (he : exec i s = .next t) :
    EdgeAnswer s t := by
  cases i with
  | onEdge c d => exact exec_onEdge_answer he
  | onRising d => exact exec_onRising_answer he
  | _ => cases hi

/-! ## The print instruction -/

/-- A write at an index of 4 or more is dropped (20_memory.md R80, D12). -/
theorem PrintInstruction.put_of_ge {i : Half} (h : ¬ i < 4#16) (b : Byte) (p : PrintInstruction) : p.put i b = p := by
  have h0 : i ≠ 0#16 := by rintro rfl; exact h (by decide)
  have h1 : i ≠ 1#16 := by rintro rfl; exact h (by decide)
  have h2 : i ≠ 2#16 := by rintro rfl; exact h (by decide)
  have h3 : i ≠ 3#16 := by rintro rfl; exact h (by decide)
  simp [PrintInstruction.put, h0, h1, h2, h3]

/-- Taking a payload byte writes the print instruction for a PRINT only (42_packet_fsm.md R165). -/
theorem payloadTaken_printInstruction (s : State) :
    (payloadTaken s).printInstruction = s.printInstruction ∨
      (classify s.packet.command = .print ∧
        (payloadTaken s).printInstruction = s.printInstruction.put s.packet.dataIndex (rxByte s.shifter)) := by
  unfold payloadTaken
  obtain ⟨_, h⟩ | ⟨hc, h⟩ | ⟨_, _, h⟩ := storePayload_cases (rxByte s.shifter) s <;> simp only [h]
  · exact .inl rfl
  · exact .inr ⟨hc, rfl⟩
  · exact .inl rfl

/-- The state completes a payload byte of a PRINT at an index below 4 with the next rising edge (R80, R165). -/
def StoresPrintByte (s : State) : Prop :=
  s.sync.synced = true ∧ s.packet.pstate = .payload ∧ s.packet.command = 0x02#8 ∧ s.packet.dataIndex < 4#16 ∧
    s.shifter.mask >>> 1 = 0#16

/-- A rising edge writes the print instruction only with such a byte; CancelReset keeps it (R80, 70_reset_and_hazards.md
R272). -/
theorem RisingEdge.printInstruction {d : Bool} {s t : State} (e : RisingEdge d s t) :
    t.printInstruction = s.printInstruction ∨ StoresPrintByte s := by
  cases e with
  | scan hs => obtain ⟨_, e⟩ | ⟨_, e⟩ := syncStep_cases d s <;> rw [e] <;> exact .inl rfl
  | within hs hm => exact .inl rfl
  | header1 hs hm hp => exact .inl rfl
  | header2 hs hm hp =>
    obtain ⟨_, _, e⟩ | ⟨_, e⟩ | ⟨_, e⟩ := header2Done_cases (lastSampled d s) <;> rw [e] <;> exact .inl rfl
  | payload hs hm hp =>
    have armed : (payloadDone (lastSampled d s)).printInstruction = (payloadTaken (lastSampled d s)).printInstruction := by
      obtain ⟨_, e⟩ | ⟨_, e⟩ := payloadDone_cases (lastSampled d s) <;> rw [e, armTransfer_printInstruction]
    rw [armed]
    obtain e | ⟨hc, e⟩ := payloadTaken_printInstruction (lastSampled d s) <;> rw [e]
    · exact .inl rfl
    · by_cases hi : s.packet.dataIndex < 4#16
      · exact .inr ⟨hs, hp, (classify_eq_print _).1 hc, hi, hm⟩
      · exact .inl (PrintInstruction.put_of_ge hi _ _)
  | checksum hs hm hp => exact .inl rfl
  | dummy hs hm hp => obtain ⟨_, e⟩ | ⟨_, e⟩ := dummyDone_cases (lastSampled d s) <;> rw [e] <;> exact .inl rfl

theorem EdgeAnswer.printInstruction {s t : State} (a : EdgeAnswer s t) :
    t.printInstruction = s.printInstruction ∨ StoresPrintByte s := by
  cases a with
  | falling => exact .inl rfl
  | rising e => exact e.printInstruction
  | risingThenDrive e => exact e.printInstruction

/-- Of the foreground operations only the two that end in HostReset write the print instruction (R271). -/
theorem Foreground.printInstruction {i : Instr} {s t : State} (f : Foreground s i t) :
    t.printInstruction = s.printInstruction ∨ isHostReset i = true := by
  cases f with
  | initEngine cap => exact .inr rfl
  | reset => exact .inr rfl
  | tick e => obtain ⟨_, f⟩ | ⟨_, _, f⟩ | ⟨_, f⟩ := tickEffect_cases e s <;> rw [f] <;> exact .inl rfl
  | takeOne => obtain ⟨_, f⟩ | ⟨_, _, f⟩ | ⟨_, _, _, _, f⟩ := ringTake_cases s <;> rw [f] <;> exact .inl rfl
  | peek k => obtain ⟨_, f⟩ | ⟨_, f⟩ := ringPeek_cases k s <;> rw [f] <;> exact .inl rfl
  | consume hi r l hl => exact .inl rfl
  | statusSetBit k v => exact .inl rfl
  | value v => exact .inl rfl

/-! ## The committed bytes -/

theorem ringEnqueue_appends (stage : Bool) (b : Byte) (f : Fifo) :
    f.committed <+: (ringEnqueue stage b f).committed := by
  obtain ⟨_, e⟩ | ⟨_, _, e⟩ | ⟨_, _, e⟩ := ringEnqueue_cases stage b f <;> simp [e]

theorem settleStaged_appends (cfg : Config) (p : Packet) (f : Fifo) :
    f.committed <+: (settleStaged cfg p f).committed := by
  obtain ⟨_, e⟩ | ⟨_, _, e⟩ | ⟨_, _, e⟩ := settleStaged_cases cfg p f <;> simp [e]

/-- Bytes are added behind the committed ones, or a BREAK's Dummy was in progress and the FIFO is emptied (20_memory.md R72,
70_reset_and_hazards.md R283). -/
def AppendsOrBreaks (s t : State) : Prop :=
  s.fifo.committed <+: t.fifo.committed ∨
    (s.packet.pstate = .dummy ∧ s.packet.command = 0x08#8 ∧ t.fifo.committed = [] ∧ t.fifo.staged = [])

theorem RisingEdge.appendsOrBreaks {d : Bool} {s t : State} (e : RisingEdge d s t) : AppendsOrBreaks s t := by
  cases e with
  | scan hs => obtain ⟨_, e⟩ | ⟨_, e⟩ := syncStep_cases d s <;> rw [e] <;> exact .inl List.prefix_rfl
  | within hs hm => exact .inl List.prefix_rfl
  | header1 hs hm hp => exact .inl List.prefix_rfl
  | header2 hs hm hp =>
    obtain ⟨_, _, e⟩ | ⟨_, e⟩ | ⟨_, e⟩ := header2Done_cases (lastSampled d s) <;> rw [e] <;> exact .inl List.prefix_rfl
  | payload hs hm hp =>
    have armed : (payloadDone (lastSampled d s)).fifo = (payloadTaken (lastSampled d s)).fifo := by
      obtain ⟨_, e⟩ | ⟨_, e⟩ := payloadDone_cases (lastSampled d s) <;> rw [e, armTransfer_fifo]
    left
    rw [armed]
    obtain e | e := (payloadTaken_frame (lastSampled d s)).fifo <;> rw [e]
    · exact List.prefix_rfl
    · exact ringEnqueue_appends _ _ _
  | checksum hs hm hp => exact .inl List.prefix_rfl
  | dummy hs hm hp =>
    obtain ⟨_, e⟩ | ⟨hc, e⟩ := dummyDone_cases (lastSampled d s) <;> rw [e]
    · exact .inl (settleStaged_appends _ _ _)
    · exact .inr ⟨hp, (classify_eq_break _).1 hc, rfl, rfl⟩

theorem EdgeAnswer.appendsOrBreaks {s t : State} (a : EdgeAnswer s t) : AppendsOrBreaks s t := by
  cases a with
  | falling => exact .inl List.prefix_rfl
  | rising e => exact e.appendsOrBreaks
  | risingThenDrive e => exact e.appendsOrBreaks

/-! ## TAKE_ONE and PEEK -/

theorem hasCode_takeOne : HasCode 0x06#8 (fun _ => .takeOne) := by
  intro r h
  simp [decode, decodeRequest, h]

theorem hasCode_peek : HasCode 0x07#8 (fun r => .peek r.natural) := by
  intro r h
  simp [decode, decodeRequest, h]

theorem exec_takeOne {s : State} (h : Ready s) : exec .takeOne s = .next (ringTake s) := whenReady_of_ready h _

theorem exec_peek (k : Nat) {s : State} (h : Ready s) : exec (.peek k) s = .next (ringPeek k s) := whenReady_of_ready h _

/-- Writing 0 to UNPROCESSED_DATA masks bit 3 out of the status byte (10_state.md R45). -/
theorem putBit_unprocessedData_false (q : Sequencer) :
    q.putBit unprocessedDataBit false = { q with status := q.status &&& 0xF7#8 } := rfl

/-! ## The obligations -/

/-- Settles O4: `step_cons_ok`, the equation of `step` for an input that decodes. -/
theorem stepServesTheDecodedInput : Obligations.StepServesTheDecodedInput :=
  fun _ _ _ _ hc h hd => step_cons_ok hc h hd

/-- Settles O17: of the edge operations only a payload byte of a PRINT below index 4 writes it, of the foreground operations
only HostReset. -/
theorem printInstructionWrittenOnlyByPrintPayload : Obligations.PrintInstructionWrittenOnlyByPrintPayload := by
  intro i s t hc he changed
  cases hg : isEdgeOp i
  · exact .inl ((exec_foreground hc hg he).printInstruction.resolve_left changed)
  · exact .inr ⟨rfl, (exec_edgeOp_answer hg he).printInstruction.resolve_left changed⟩

/-- Settles O18: `AppendsOrBreaks` holds of every answer of an edge operation. -/
theorem edgeOperationsOnlyAppendToTheFifo : Obligations.EdgeOperationsOnlyAppendToTheFifo := by
  intro i s t hi he
  exact (exec_edgeOp_answer hi he).appendsOrBreaks.imp_left fun ⟨more, h⟩ => ⟨more, h.symm⟩

/-- Settles O28: the three cases of `ringTake_cases`. -/
theorem takeOneGivesTheOldestByte : Obligations.TakeOneGivesTheOldestByte := by
  refine ⟨hasCode_takeOne, fun s h => ?_⟩
  rw [exec_takeOne h]
  obtain ⟨hf, e⟩ | ⟨b, hf, e⟩ | ⟨b, c, rest, hf, e⟩ := ringTake_cases s <;> rw [e, hf]
  · exact ⟨nofun, nofun, fun _ => ⟨_, rfl⟩⟩
  · refine ⟨nofun, fun b' hb => ?_, nofun⟩
    cases hb
    rw [putBit_unprocessedData_false]
  · refine ⟨fun b' c' rest' hb => ?_, nofun, nofun⟩
    cases hb
    rfl

/-- Settles O29: the two cases of `ringPeek_cases`. -/
theorem peekReadsAtTheOffset : Obligations.PeekReadsAtTheOffset := by
  refine ⟨hasCode_peek, fun k s h => ?_⟩
  rw [exec_peek k h]
  obtain ⟨hk, e⟩ | ⟨hk, e⟩ := ringPeek_cases k s <;> rw [e]
  · exact ⟨fun _ => rfl, fun hle => by omega⟩
  · exact ⟨fun hlt => by omega, fun _ => ⟨_, rfl⟩⟩

end Sys2Proof.Machine
end

section
/-! What one DATA frame followed by TAKE_ONEs gives (spec/20_memory.md R72, R74, R78; 43_commands.md R182): the frame, transfer
by transfer, then the run of `step`. -/

namespace Sys2Proof.Machine

/-! ## The words of a frame on the wire -/

theorem hiByte_append_loByte (w : Half) : hiByte w ++ loByte w = w := by
  apply BitVec.eq_of_getLsbD_eq
  intro i hi
  simp only [hiByte, loByte, BitVec.getLsbD_append, BitVec.getLsbD_extractLsb']
  by_cases h : i < 8
  · simp [h]
  · have top : i - 8 < 8 := by omega
    simp [h, top, show 8 + (i - 8) = i by omega]

theorem frameBytes_eq (c : Byte) (f : Frame) :
    frameBytes c f = [0x88#8, 0x33#8, c, f.compression, loByte (frameLength f), hiByte (frameLength f)] ++ f.payload ++
      [loByte f.checksum, hiByte f.checksum, hiByte f.dummy, loByte f.dummy] := rfl

theorem frameLength_toNat {f : Frame} (h : f.wf = true) : (frameLength f).toNat = f.payload.length := by
  have bound : f.payload.length < 65536 := of_decide_eq_true h
  exact Nat.mod_eq_of_lt bound

/-- A frame whose length fits its field is read back as the instruction of its command byte (30_encoding.md R100). -/
theorem decodeFrame_frameBytes (c : Byte) {f : Frame} (h : f.wf = true) :
    decodeFrame (frameBytes c f) = .ok (commandInstr c f) := by
  rw [frameBytes_eq]
  simp only [decodeFrame, List.cons_append, List.nil_append, hiByte_append_loByte, frameLength_toNat h, List.drop_left,
    List.take_left, and_self, if_true]

/-! ## Transfers of a frame -/

/-- The engine stands before the first bit of a transfer of packet state `p` in mode `m`, with nothing to send
(42_packet_fsm.md R160, 40_bit_shifter.md R131). -/
structure QuietStart (p : PState) (m : Mode) (s : State) : Prop where
  synced : s.sync.synced = true
  pstate : s.packet.pstate = p
  shifter : s.shifter = { mode := m, mask := startMask m, rx := 0#16, tx := 0#16, sout := false }

theorem QuietStart.quiet {p : PState} {m : Mode} {s : State} (h : QuietStart p m s) : Quiet s := by
  simp [Quiet, h.shifter]

/-- What `Begin` makes of a low line when there is nothing to send (R131). -/
theorem beginTransfer_low (m : Mode) {h : Shifter} (low : h.sout = false) :
    beginTransfer m 0#16 h = { mode := m, mask := startMask m, rx := 0#16, tx := 0#16, sout := false } := by
  cases m <;> simp [beginTransfer, low, swap16, loByte, hiByte]

theorem quietStart_armTransfer (p : PState) (m : Mode) {s : State} (hs : s.sync.synced = true)
    (low : s.shifter.sout = false) : QuietStart p m (armTransfer p m 0#16 s) :=
  ⟨hs, rfl, beginTransfer_low m low⟩

/-- Of the shifter only the level of the line survives a `Begin` (40_bit_shifter.md R131). -/
theorem armTransfer_withShifter (p : PState) (m : Mode) {s : State} {h : Shifter} (low : s.shifter.sout = false)
    (low' : h.sout = false) : armTransfer p m 0#16 (s.withShifter h) = armTransfer p m 0#16 s := by
  simp only [armTransfer, State.withShifter, State.withPacket, beginTransfer_low m low, beginTransfer_low m low']

theorem armTransfer_armTransfer (p q : PState) (m n : Mode) {s : State} (low : s.shifter.sout = false) :
    armTransfer p m 0#16 (armTransfer q n 0#16 s) = armTransfer p m 0#16 s := by
  simp only [armTransfer, State.withShifter, State.withPacket, beginTransfer_low _ low]
  rw [beginTransfer_low m rfl]

theorem transition_payload {s : State} (hp : s.packet.pstate = .payload) :
    transition s = payloadDone (s.withTimer s.config.timeoutMs) := by
  simp [transition, hp]

theorem transition_checksum {s : State} (hp : s.packet.pstate = .checksum) :
    transition s = checksumDone (s.withTimer s.config.timeoutMs) := by
  simp [transition, hp]

theorem transition_dummy {s : State} (hp : s.packet.pstate = .dummy) :
    transition s = dummyDone (s.withTimer s.config.timeoutMs) := by
  simp [transition, hp]

/-- A word shifted in low byte first is read as that word (40_bit_shifter.md R138). -/
theorem rxWord_wordLE (w k t : Half) (o : Bool) :
    rxWord { mode := .wordLE, mask := k, rx := loByte w ++ hiByte w, tx := t, sout := o } = w := by
  show swap16 (loByte w ++ hiByte w) = w
  rw [swap16_append, hiByte_append_loByte]

/-! ## The payload of a DATA frame -/

/-- Enqueue the bytes in order (20_memory.md R74). -/
def enqueueAll (stage : Bool) (bytes : List Byte) (f : Fifo) : Fifo := bytes.foldl (fun f b => ringEnqueue stage b f) f

/-- The bytes for which there is room enter, the others are dropped (R74). -/
theorem enqueueAll_eq (stage : Bool) (bytes : List Byte) (f : Fifo) :
    enqueueAll stage bytes f =
      if stage then { f with staged := f.staged ++ bytes.take (f.cap - (f.committed.length + f.staged.length)) }
      else { f with committed := f.committed ++ bytes.take (f.cap - (f.committed.length + f.staged.length)) } := by
  induction bytes generalizing f with
  | nil => simp [enqueueAll]
  | cons b bs ih =>
    rw [show enqueueAll stage (b :: bs) f = enqueueAll stage bs (ringEnqueue stage b f) from rfl, ih]
    obtain ⟨full, e⟩ | ⟨room, rfl, e⟩ | ⟨room, rfl, e⟩ := ringEnqueue_cases stage b f <;> rw [e]
    · simp [Nat.sub_eq_zero_of_le full]
    · have one : f.cap - (f.committed.length + f.staged.length) =
          f.cap - (f.committed.length + (f.staged.length + 1)) + 1 := by omega
      simp [one, List.take_succ_cons]
    · have one : f.cap - (f.committed.length + f.staged.length) =
          f.cap - (f.committed.length + 1 + f.staged.length) + 1 := by omega
      simp [one, List.take_succ_cons]

/-- The payload bytes of a DATA are taken: stored, summed and counted, the timer refilled at each (42_packet_fsm.md R160,
R165). -/
def dataTaken (bytes : List Byte) (s : State) : State :=
  { s with
    packet := { s.packet with
      computedChecksum := s.packet.computedChecksum + byteSum bytes,
      dataIndex := s.packet.dataIndex + BitVec.ofNat 16 bytes.length }
    fifo := enqueueAll s.config.stageOnChecksum bytes s.fifo
    timer := s.config.timeoutMs }

theorem byteSum_append (as bs : List Byte) : byteSum (as ++ bs) = byteSum as + byteSum bs := by simp [byteSum]

theorem dataTaken_append (as bs : List Byte) (s : State) : dataTaken (as ++ bs) s = dataTaken bs (dataTaken as s) := by
  simp [dataTaken, enqueueAll, byteSum_append, BitVec.add_assoc, BitVec.ofNat_add]

theorem dataTaken_armTransfer (bytes : List Byte) (p : PState) (m : Mode) (w : Half) (s : State) :
    dataTaken bytes (armTransfer p m w s) = armTransfer p m w (dataTaken bytes s) := rfl

theorem storePayload_data (b : Byte) {s : State} (hc : classify s.packet.command = .data) :
    storePayload b s = s.withFifo (ringEnqueue s.config.stageOnChecksum b s.fifo) := by
  simp [storePayload, hc]

theorem loByte_zext16 (b : Byte) : loByte (zext16 b) = b := by
  revert b
  decide

/-- A whole payload byte of a DATA has been shifted in: it is taken, whatever the shifter holds beside it (R165). -/
theorem payloadTaken_data (b : Byte) {s : State} {h : Shifter} (hc : classify s.packet.command = .data)
    (hb : rxByte h = b) :
    payloadTaken ((s.withShifter h).withTimer s.config.timeoutMs) = (dataTaken [b] s).withShifter h := by
  unfold payloadTaken
  rw [storePayload_data _ (by exact hc)]
  simp [dataTaken, enqueueAll, byteSum, hb, zext16, State.withShifter, State.withTimer, State.withFifo, State.withPacket]

/-- One payload byte of a DATA: Checksum follows the last one, another payload byte any other (R165). -/
theorem sendByte_data (b : Byte) {s : State} (h : QuietStart .payload .byte s)
    (hc : classify s.packet.command = .data) :
    sendByte b s = (0x00#8,
      if s.packet.dataIndex + 1#16 = s.packet.dataLength then armTransfer .checksum .wordLE 0#16 (dataTaken [b] s)
      else armTransfer .payload .byte 0#16 (dataTaken [b] s)) := by
  have low : (dataTaken [b] s).shifter.sout = false := h.quiet.2
  rw [sendByte_quiet b h.synced h.quiet (by rw [h.shifter]; rfl) (by rw [h.shifter]) (by simp [h.pstate]),
    transition_payload (by exact h.pstate), h.shifter]
  have taken := payloadTaken_data (h := { mode := .byte, mask := 0#16, rx := zext16 b, tx := 0#16, sout := false }) b hc
    (loByte_zext16 b)
  refine congrArg (Prod.mk _) ?_
  obtain ⟨hi, e⟩ | ⟨hi, e⟩ := payloadDone_cases ((s.withShifter
    { mode := .byte, mask := 0#16, rx := zext16 b, tx := 0#16, sout := false }).withTimer s.config.timeoutMs)
  · rw [if_pos (by exact hi)]
    exact e.trans (taken ▸ armTransfer_withShifter _ _ low rfl)
  · rw [if_neg (by exact hi)]
    exact e.trans (taken ▸ armTransfer_withShifter _ _ low rfl)

/-- The payload of a DATA from its first byte to its last, which the index reaches the length with (R165). -/
theorem sendBytes_data (b : Byte) (bs : List Byte) {s : State} (h : QuietStart .payload .byte s)
    (hc : classify s.packet.command = .data) (fits : bs.length + 1 < 65536)
    (hl : s.packet.dataLength = s.packet.dataIndex + BitVec.ofNat 16 (bs.length + 1)) :
    sendBytes (b :: bs) s =
      (List.replicate (bs.length + 1) 0x00#8, armTransfer .checksum .wordLE 0#16 (dataTaken (b :: bs) s)) := by
  induction bs generalizing b s with
  | nil => simp [sendBytes, sendByte_data b h hc, hl]
  | cons c cs ih =>
    have low : s.shifter.sout = false := h.quiet.2
    rw [List.length_cons] at fits hl
    have more : s.packet.dataIndex + 1#16 ≠ s.packet.dataLength := by
      rw [hl]
      bv_omega
    have next : QuietStart .payload .byte (armTransfer .payload .byte 0#16 (dataTaken [b] s)) :=
      quietStart_armTransfer _ _ h.synced low
    have left : s.packet.dataLength = s.packet.dataIndex + 1#16 + BitVec.ofNat 16 (cs.length + 1) := by
      rw [hl]
      bv_omega
    have rest := ih c next hc (by omega) left
    rw [dataTaken_armTransfer, armTransfer_armTransfer _ _ _ _ (by exact low), ← dataTaken_append] at rest
    rw [sendBytes, sendByte_data b h hc, if_neg more]
    simp only [rest]
    rfl

/-- Where the length of a DATA frame leaves the engine, no transfer armed yet (42_packet_fsm.md R161, R162). -/
def dataHeader (f : Frame) (s : State) : State :=
  let t := afterHeader1 0x04#8 f.compression s
  t.withPacket { t.packet with dataLength := frameLength f }

theorem header2Done_data {s : State} (hc : classify s.packet.command = .data) :
    header2Done s =
      if rxWord s.shifter = 0#16 then
        armTransfer .checksum .wordLE 0#16 (s.withPacket { s.packet with dataLength := rxWord s.shifter })
      else armTransfer .payload .byte 0#16 (s.withPacket { s.packet with dataLength := rxWord s.shifter }) := by
  simp [header2Done, hc]

theorem dataTaken_nil {s : State} (ht : s.timer = s.config.timeoutMs) : dataTaken [] s = s := by
  simp [dataTaken, enqueueAll, byteSum, ← ht]

/-- The six bytes up to the payload of a DATA frame: an empty payload is passed over (R162). -/
theorem sendBytes_dataHeader (f : Frame) {s : State} (h : AwaitingPreamble s) :
    sendBytes [0x88#8, 0x33#8, 0x04#8, f.compression, loByte (frameLength f), hiByte (frameLength f)] s =
      (List.replicate 6 0x00#8,
        if frameLength f = 0#16 then armTransfer .checksum .wordLE 0#16 (dataHeader f s)
        else armTransfer .payload .byte 0#16 (dataHeader f s)) := by
  have armed : ∀ p m, armTransfer p m 0#16 ((dataHeader f s).withShifter
      { mode := .wordLE, mask := 0#16, rx := loByte (frameLength f) ++ hiByte (frameLength f), tx := 0#16, sout := false }) =
        armTransfer p m 0#16 (dataHeader f s) := fun p m => armTransfer_withShifter p m rfl rfl
  rw [sendBytes_header _ _ _ _ h, header2Done_data (by rfl), State.withShifter_shifter, rxWord_wordLE, ← armed, ← armed]
  rfl

/-- A DATA frame up to its checksum: the payload is taken byte by byte (R165). -/
theorem sendBytes_dataUpToChecksum {f : Frame} {s : State} (hw : f.wf = true) (h : AwaitingPreamble s) :
    sendBytes ([0x88#8, 0x33#8, 0x04#8, f.compression, loByte (frameLength f), hiByte (frameLength f)] ++ f.payload) s =
      (List.replicate (6 + f.payload.length) 0x00#8,
        armTransfer .checksum .wordLE 0#16 (dataTaken f.payload (dataHeader f s))) := by
  rw [sendBytes_append, sendBytes_dataHeader f h]
  cases hp : f.payload with
  | nil =>
    have zero : frameLength f = 0#16 := by rw [frameLength, hp]; rfl
    rw [if_pos zero, dataTaken_nil (by rfl)]
    rfl
  | cons b bs =>
    have fits : bs.length + 1 < 65536 := by simpa [Frame.wf, hp] using hw
    have length : frameLength f = BitVec.ofNat 16 (bs.length + 1) := by rw [frameLength, hp]; rfl
    have nonzero : frameLength f ≠ 0#16 := by
      rw [length]
      bv_omega
    have start : QuietStart .payload .byte (armTransfer .payload .byte 0#16 (dataHeader f s)) :=
      quietStart_armTransfer _ _ rfl rfl
    have payload := sendBytes_data b bs start rfl fits (length.trans (BitVec.zero_add _).symm)
    rw [dataTaken_armTransfer, armTransfer_armTransfer _ _ _ _ (by rfl)] at payload
    rw [if_neg nonzero, payload]
    exact Prod.ext (List.replicate_append_replicate ..) rfl

/-! ## Checksum and Dummy -/

/-- The checksum field `w` of a frame has been shifted in, and its transition is about to run (42_packet_fsm.md R168). -/
def checksumReceived (w : Half) (s : State) : State :=
  (s.withShifter { mode := .wordLE, mask := 0#16, rx := loByte w ++ hiByte w, tx := 0#16, sout := false }).withTimer
    s.config.timeoutMs

theorem summedPacket_checksumReceived (w : Half) (s : State) :
    summedPacket (checksumReceived w s) =
      { s.packet with receivedChecksum := w, computedChecksum := foldHeader s.packet } := by
  have received : rxWord (checksumReceived w s).shifter = w := rxWord_wordLE w _ _ _
  rw [summedPacket, received]
  rfl

/-- The Dummy's end does not depend on what the shifter holds (42_packet_fsm.md R170). -/
theorem dummyDone_withShifter (s : State) (h : Shifter) : dummyDone (s.withShifter h) = dummyDone s := rfl

theorem loByte_statusWordOf (q : Sequencer) : loByte (statusWordOf q) = q.status := loByte_append _ _

theorem lineReady_settle (s : State) : LineReady (settle s) := by
  intro hr
  rw [(settle_same s).config] at hr
  simp [settle, hr, driveLevel]

theorem quiet_dummyDone (s : State) : Quiet (dummyDone s) := by
  obtain ⟨_, e⟩ | ⟨_, e⟩ := dummyDone_cases s <;> rw [e] <;> exact ⟨rfl, rfl⟩

/-- The Dummy of a packet: the master reads the word to send, high byte first, and DummyDone has run (R170). -/
theorem sendBytes_dummy (d0 d1 : Byte) {s : State} (hs : s.sync.synced = true) (hl : LineReady s)
    (hm : s.shifter.mask = 0x8000#16) (hr : s.shifter.rx = 0#16) (hp : s.packet.pstate = .dummy)
    (ht : s.timer = s.config.timeoutMs) :
    sendBytes [d0, d1] s = ([hiByte s.shifter.tx, loByte s.shifter.tx], dummyDone s) := by
  have refilled : ∀ h, (s.withShifter h).withTimer s.config.timeoutMs = s.withShifter h := by
    intro h
    rw [← ht]
    rfl
  rw [sendBytes_transfer d0 d1 hs hl hm hr, transition_dummy (by exact hp), State.withShifter_config, refilled,
    dummyDone_withShifter, settle_of_quiet (quiet_dummyDone s)]

/-- The four bytes that end a packet: the master reads zeros over the checksum, the device ID and the status over the Dummy,
and ChecksumDone and DummyDone have run (30_encoding.md R100, 42_packet_fsm.md R168, R170). -/
theorem sendBytes_checksum_dummy (w : Half) (d0 d1 : Byte) {s : State} (h : QuietStart .checksum .wordLE s) :
    sendBytes [loByte w, hiByte w, d0, d1] s =
      ([0x00#8, 0x00#8, deviceId, (checksumSeq (checksumReceived w s)).status],
        dummyDone (checksumDone (checksumReceived w s))) := by
  have first : sendBytes [loByte w, hiByte w] s = ([0x00#8, 0x00#8], settle (checksumDone (checksumReceived w s))) := by
    rw [sendBytes_transfer _ _ h.synced h.quiet.lineReady (by rw [h.shifter]; rfl) (by rw [h.shifter]),
      transition_checksum (by exact h.pstate), h.shifter]
    rfl
  obtain ⟨o, ho⟩ := settle_eq (checksumDone (checksumReceived w s))
  have word : (checksumDone (checksumReceived w s)).shifter.tx = statusWordOf (checksumSeq (checksumReceived w s)) := rfl
  have second : sendBytes [d0, d1] (settle (checksumDone (checksumReceived w s))) =
      ([deviceId, (checksumSeq (checksumReceived w s)).status], dummyDone (checksumDone (checksumReceived w s))) := by
    have line := lineReady_settle (checksumDone (checksumReceived w s))
    rw [ho] at line ⊢
    rw [sendBytes_dummy d0 d1 (by exact h.synced) line rfl rfl rfl rfl, dummyDone_withShifter]
    simp only [State.withShifter_shifter, word, hiByte_statusWordOf, loByte_statusWordOf]
  rw [show [loByte w, hiByte w, d0, d1] = [loByte w, hiByte w] ++ [d0, d1] from rfl, sendBytes_append, first]
  simp only [second]
  rfl

/-- A whole DATA frame (43_commands.md R182). -/
theorem sendBytes_dataFrame {f : Frame} {s : State} (hw : f.wf = true) (h : AwaitingPreamble s) :
    let u := checksumReceived f.checksum (armTransfer .checksum .wordLE 0#16 (dataTaken f.payload (dataHeader f s)))
    sendBytes (frameBytes 0x04#8 f) s =
      (List.replicate (8 + f.payload.length) 0x00#8 ++ [deviceId, (checksumSeq u).status], dummyDone (checksumDone u)) := by
  have start : QuietStart .checksum .wordLE
      (armTransfer .checksum .wordLE 0#16 (dataTaken f.payload (dataHeader f s))) := quietStart_armTransfer _ _ rfl rfl
  rw [frameBytes_eq, sendBytes_append, sendBytes_dataUpToChecksum hw h]
  simp only [sendBytes_checksum_dummy _ _ _ start]
  refine Prod.ext ?_ rfl
  rw [show 8 + f.payload.length = 6 + f.payload.length + 2 by omega, List.replicate_add (6 + f.payload.length)]
  simp

theorem dummyDone_fifo {s : State} (hc : classify s.packet.command ≠ .break_) :
    (dummyDone s).fifo = settleStaged s.config s.packet s.fifo := by
  obtain ⟨_, e⟩ | ⟨h, _⟩ := dummyDone_cases s
  · rw [e]
    rfl
  · exact absurd h hc

/-- A packet whose sums agree keeps what was enqueued, staged or not (42_packet_fsm.md R170). -/
theorem settleStaged_enqueueAll {cfg : Config} {p : Packet} {f : Fifo} (hs : f.staged = []) (agree : sumsAgree p = true)
    (bytes : List Byte) :
    settleStaged cfg p (enqueueAll cfg.stageOnChecksum bytes f) =
      { f with committed := f.committed ++ bytes.take (f.cap - f.committed.length) } := by
  rw [enqueueAll_eq]
  cases stage : cfg.stageOnChecksum <;> simp [settleStaged, stage, agree, ringCommit, hs]

/-- The sum the engine computes over a DATA frame is the one R103 defines. -/
theorem frameChecksum_data (f : Frame) :
    frameChecksum 0x04#8 f = 0#16 + byteSum f.payload + zext16 0x04#8 + zext16 f.compression +
      zext16 (loByte (frameLength f)) + zext16 (hiByte (frameLength f)) := by
  show _ + byteSum f.payload = _
  rw [BitVec.zero_add, BitVec.add_comm]
  simp only [BitVec.add_assoc]
  rfl

/-- The bytes of the payload for which there is room are committed, if the frame carries its checksum (20_memory.md R72, R74,
42_packet_fsm.md R170). -/
theorem dataFrame_fifo {f : Frame} {s : State} (hw : f.wf = true) (h : AwaitingPreamble s) (hs : s.fifo.staged = [])
    (hc : f.checksum = frameChecksum 0x04#8 f) :
    (sendBytes (frameBytes 0x04#8 f) s).2.fifo = { s.fifo with
      committed := s.fifo.committed ++ f.payload.take (s.fifo.cap - s.fifo.committed.length) } := by
  rw [sendBytes_dataFrame hw h]
  dsimp only
  rw [dummyDone_fifo (by rw [checksumDone_eq]; exact fun h => by cases h)]
  refine settleStaged_enqueueAll (cfg := s.config) hs ?_ f.payload
  rw [checksumDone_eq, armTransfer_packet, State.withSeq_packet, State.withPacket_packet, summedPacket_checksumReceived]
  exact beq_iff_eq.2 ((frameChecksum_data f).symm.trans hc.symm)

/-! ## Runs of TAKE_ONE -/

theorem run_succ {k : Nat} {s t : State} (h : step s = .next t) :
    Host.Core.run Sys2Proof.core (k + 1) s = Host.Core.run Sys2Proof.core k t := by
  simp only [Host.Core.run, show Sys2Proof.core.step s = .next t from h]

theorem controlPoint_ringTake (s : State) : controlPoint (ringTake s) = controlPoint s := by
  obtain ⟨_, h⟩ | ⟨_, _, h⟩ | ⟨_, _, _, _, h⟩ := ringTake_cases s <;> rw [h] <;> rfl

/-- RingTake gives the oldest byte and leaves the others (20_memory.md R78). -/
theorem ringTake_cons {s : State} {b : Byte} {bytes : List Byte} (h : s.fifo.committed = b :: bytes) :
    (ringTake s).result = .byte b ∧ (ringTake s).fifo.committed = bytes := by
  obtain ⟨hf, e⟩ | ⟨c, hf, e⟩ | ⟨c, d, rest, hf, e⟩ := ringTake_cases s <;> rw [hf] at h <;> cases h <;> rw [e] <;>
    exact ⟨rfl, rfl⟩

/-- The engine can serve the schedule `inputs` and has the bytes `bytes` committed. -/
structure ReadyWith (inputs : List Input) (bytes : List Byte) (s : State) : Prop where
  control : controlPoint s = true
  ready : Ready s
  inputs : s.inputs = inputs
  committed : s.fifo.committed = bytes

/-- A TAKE_ONE in front of the schedule gives the oldest byte in one step (R78). -/
theorem ReadyWith.step_takeOne {rest : List Input} {b : Byte} {bytes : List Byte} {s : State}
    (h : ReadyWith (encode .takeOne :: rest) (b :: bytes) s) :
    ∃ t, step s = .next t ∧ t.result = .byte b ∧ ReadyWith rest bytes t := by
  have same := ringTake_sameInstance { s with inputs := rest }
  obtain ⟨result, left⟩ := ringTake_cons (s := { s with inputs := rest }) h.committed
  have served := (step_cons_ok h.control h.inputs (hasCode_takeOne _ rfl)).trans (exec_takeOne (by exact h.ready))
  refine ⟨_, served, result, (controlPoint_ringTake _).trans h.control, ?_, same.inputs, left⟩
  rw [Ready, same.config, same.initialised]
  exact h.ready

/-- `k + 1` TAKE_ONEs in a row give the `k`-th committed byte last and leave the bytes behind it (R72, R78). -/
theorem ReadyWith.run_takeOne {k : Nat} {bytes : List Byte} {s : State}
    (h : ReadyWith (List.replicate (k + 1) (encode .takeOne)) bytes s) (hk : k < bytes.length) :
    ∃ t, Host.Core.run Sys2Proof.core (k + 1) s = .next t ∧ t.result = .byte bytes[k] ∧
      t.fifo.committed = bytes.drop (k + 1) := by
  induction k generalizing bytes s with
  | zero =>
    cases bytes with
    | nil => cases hk
    | cons b bytes =>
      obtain ⟨t, served, result, left⟩ := h.step_takeOne
      exact ⟨t, run_succ served, result, left.committed⟩
  | succ k ih =>
    cases bytes with
    | nil => cases hk
    | cons b bytes =>
      obtain ⟨t, served, _, left⟩ := h.step_takeOne
      rw [run_succ served]
      exact ih left (Nat.lt_of_succ_lt_succ hk)

/-- One DATA frame in front of the schedule, well-formed, and with room for its payload in an empty FIFO, leaves that payload
committed (R72). -/
theorem ReadyWith.step_dataFrame {rest : List Input} {f : Frame} {s : State}
    (h : ReadyWith (encode (.cmdData f) :: rest) [] s) (await : AwaitingPreamble s) (hs : s.fifo.staged = [])
    (hw : f.wf = true) (hc : f.checksum = frameChecksum 0x04#8 f) (room : f.payload.length ≤ s.fifo.cap) :
    ∃ t, step s = .next t ∧ ReadyWith rest f.payload t := by
  have served := (step_cons_ok h.control h.inputs (decodeFrame_frameBytes 0x04#8 hw)).trans
    (transmit_eq (by exact h.ready) (by exact h.control) (frameBytes 0x04#8 f))
  have same := sendBytes_same (frameBytes 0x04#8 f) { s with inputs := rest }
  have fifo := dataFrame_fifo (s := { s with inputs := rest }) hw await hs hc
  refine ⟨_, served, controlPoint_sendBytes _ (by exact h.control), ?_, same.inputs, ?_⟩
  · rw [Ready, State.withResult_config, State.withResult_initialised, same.config, same.initialised]
    exact h.ready
  · rw [State.withResult_fifo, fifo]
    simp [h.committed, room]

/-! ## The obligation -/

/-- Settles O57: the frame commits the payload (`dataFrame_fifo`), and the TAKE_ONEs give it byte by byte. -/
theorem takenBytesAreThePayloadInOrder : Obligations.TakenBytesAreThePayloadInOrder := by
  intro cfg cap k comp payload hraw hlen hcap hk
  have start : ReadyWith (encode (.cmdData (pkt 0x04#8 comp payload)) :: List.replicate (k + 1) (encode .takeOne)) []
      { State.postInit cfg cap with
        inputs := encode (.cmdData (pkt 0x04#8 comp payload)) :: List.replicate (k + 1) (encode .takeOne) } :=
    ⟨rfl, ⟨hraw, rfl⟩, rfl, rfl⟩
  obtain ⟨s, served, queued⟩ := start.step_dataFrame ⟨rfl, rfl, rfl, rfl, rfl⟩ rfl (decide_eq_true hlen) rfl hcap
  rw [run_succ served]
  exact queued.run_takeOne hk

end Sys2Proof.Machine
end

section
/-! What the two ports read of an encoded instruction (spec/30_encoding.md R100, R110, R120, R121), and what a step does with an
input that is none. -/

namespace Sys2Proof.Machine

/-! ## The encoded forms -/

/-- A byte that is no known command byte is an unknown command (30_encoding.md R110). -/
theorem classify_unknown {c : Byte} (h : knownCommandBytes.contains c = false) : classify c = .unknown := by
  revert c
  decide

theorem commandInstr_unknown {c : Byte} (h : knownCommandBytes.contains c = false) (f : Frame) :
    commandInstr c f = .cmdUnknown c f := by
  simp only [commandInstr, classify_unknown h]

/-- The five operation bits of a status code (R120): the library's equation at the widths 5 and 3, where `simp` finds it. -/
theorem operationBits_append (op : BitVec 5) (k : BitVec 3) : (op ++ k).extractLsb' 3 5 = op :=
  BitVec.extractLsb'_append_eq_left

/-- The bit number in a status code (R120). -/
theorem bitNumber_append (op : BitVec 5) (k : BitVec 3) : (op ++ k).extractLsb' 0 3 = k :=
  BitVec.extractLsb'_append_eq_right

/-- Codes with different operation bits differ (R120). -/
theorem append_ne_of_operationBits_ne {op : BitVec 5} {c : Byte} (h : c.extractLsb' 3 5 ≠ op) (k : BitVec 3) :
    op ++ k ≠ c := by
  rintro rfl
  exact h (operationBits_append op k)

theorem hasCode_statusGetBit (k : BitVec 3) : HasCode (0b00100#5 ++ k) (fun _ => .statusGetBit k) := by
  intro r h
  simp [decode, decodeRequest, h, append_ne_of_operationBits_ne, operationBits_append, bitNumber_append]

theorem hasCode_statusSetBit (k : BitVec 3) : HasCode (0b00101#5 ++ k) (fun r => .statusSetBit k r.bit) := by
  intro r h
  simp [decode, decodeRequest, h, append_ne_of_operationBits_ne, operationBits_append, bitNumber_append]

/-- A transaction is read back from its code and operand lines (R120). -/
theorem decode_encode_transaction {i : Instr} (h : isCommandRow i = false) : decode (encode i) = .ok i := by
  cases i with
  | statusGetBit k => exact hasCode_statusGetBit k _ rfl
  | statusSetBit k v => exact hasCode_statusSetBit k _ rfl
  | cmdInit | cmdPrint | cmdData | cmdBreak | cmdInquiry | cmdUnknown => cases h
  | _ => rfl

/-- A command row is read back from the bytes of its frame (R100, R110). -/
theorem decode_encode_commandRow {i : Instr} (h : isCommandRow i = true) (hw : i.wf = true) :
    decode (encode i) = .ok i := by
  cases i with
  | cmdInit f => exact decodeFrame_frameBytes 0x01#8 hw
  | cmdPrint f => exact decodeFrame_frameBytes 0x02#8 hw
  | cmdData f => exact decodeFrame_frameBytes 0x04#8 hw
  | cmdBreak f => exact decodeFrame_frameBytes 0x08#8 hw
  | cmdInquiry f => exact decodeFrame_frameBytes 0x0F#8 hw
  | cmdUnknown c f =>
    obtain ⟨length, unknown⟩ : f.wf = true ∧ knownCommandBytes.contains c = false := by simpa [Instr.wf] using hw
    exact (decodeFrame_frameBytes c length).trans (congrArg Except.ok (commandInstr_unknown unknown f))
  | _ => cases h

/-! ## The obligations -/

/-- Settles O1: a command row by its frame, a transaction by its code. -/
theorem decodeOfEncodeIsIdentity : Obligations.DecodeOfEncodeIsIdentity := by
  intro i hw
  cases hc : isCommandRow i
  · exact decode_encode_transaction hc
  · exact decode_encode_commandRow hc hw

/-- Settles O2: the decoder computes each of the four. -/
theorem writtenWordsDecode : Obligations.WrittenWordsDecode := ⟨rfl, rfl, rfl, rfl⟩

/-- Settles O3: `decode_request_isOk` says which codes name an operation, and what decodes to none is left to
`execUndecoded`, which refuses a request by its code. -/
theorem reservedCodesAreRefused : Obligations.ReservedCodesAreRefused := by
  intro r
  have code := decode_request_isOk r
  cases hd : decode (.request r) with
  | ok i =>
    have named : ¬ ReservedCode r.code := of_decide_eq_true (by rw [← code, hd]; rfl)
    exact ⟨iff_of_false named fun none => none ⟨i, rfl⟩, fun _ _ _ _ reserved => absurd reserved named⟩
  | error e =>
    have reserved : ReservedCode r.code := not_not.1 (of_decide_eq_false (by rw [← code, hd]; rfl))
    exact ⟨iff_of_true reserved nofun, fun _ _ hc hq _ => step_cons_error hc hq hd⟩

/-- Settles O6: what decodes to no instruction is left to `execUndecoded`, which sends wire bytes. -/
theorem stepSendsWireBytesThatAreNoFrame : Obligations.StepSendsWireBytesThatAreNoFrame := by
  intro s bytes rest e hc hr hq hd
  exact (step_cons_error hc hq hd).trans (transmit_eq (by exact hr) (by exact hc) bytes)

end Sys2Proof.Machine
end

section
/-! A frame as the run of its bit slots (spec/30_encoding.md R122, 40_bit_shifter.md R142): what the engine does with a bit slot
does not depend on the schedule or on the last returned value, so the edge operations of the slot, served one by one, end where
the slot does. -/

namespace Sys2Proof.Machine

/-! ## The serial line reads neither the schedule nor the returned value -/

/-- The state with the schedule `xs` and the returned value `r` (logs 2, 5). -/
def State.presenting (xs : List Input) (r : Result) (s : State) : State := (s.withInputs xs).withResult r

@[simp] theorem State.presenting_presenting (xs ys : List Input) (r q : Result) (s : State) :
    (s.presenting ys q).presenting xs r = s.presenting xs r := rfl

section
variable (xs : List Input) (r : Result)

theorem syncStep_presenting (d : Bool) (s : State) : syncStep d (s.presenting xs r) = (syncStep d s).presenting xs r := by
  obtain ⟨h, e⟩ | ⟨h, e⟩ := syncStep_cases d s <;> rw [e]
  · exact if_pos h
  · exact if_neg h

theorem header2Done_presenting (s : State) : header2Done (s.presenting xs r) = (header2Done s).presenting xs r := by
  have command : (s.presenting xs r).packet.command = s.packet.command := rfl
  have shifter : (s.presenting xs r).shifter = s.shifter := rfl
  rw [header2Done, header2Done, command, shifter]
  cases classify s.packet.command with
  | data =>
    dsimp only
    split <;> rfl
  | _ => rfl

theorem storePayload_presenting (b : Byte) (s : State) :
    storePayload b (s.presenting xs r) = (storePayload b s).presenting xs r := by
  have command : (s.presenting xs r).packet.command = s.packet.command := rfl
  rw [storePayload, storePayload, command]
  cases classify s.packet.command <;> rfl

theorem payloadTaken_presenting (s : State) : payloadTaken (s.presenting xs r) = (payloadTaken s).presenting xs r := by
  have shifter : (s.presenting xs r).shifter = s.shifter := rfl
  rw [payloadTaken, shifter, storePayload_presenting]
  rfl

theorem payloadDone_presenting (s : State) : payloadDone (s.presenting xs r) = (payloadDone s).presenting xs r := by
  have taken := payloadTaken_presenting xs r s
  obtain ⟨h, e⟩ | ⟨h, e⟩ := payloadDone_cases s
  · rw [e]
    exact (if_pos h).trans (congrArg (armTransfer .checksum .wordLE 0#16) taken)
  · rw [e]
    exact (if_neg h).trans (congrArg (armTransfer .payload .byte 0#16) taken)

theorem dummyDone_presenting (s : State) : dummyDone (s.presenting xs r) = (dummyDone s).presenting xs r := by
  obtain ⟨h, e⟩ | ⟨h, e⟩ := dummyDone_cases s <;> rw [e]
  · exact if_neg h
  · exact if_pos h

theorem transition_presenting (s : State) : transition (s.presenting xs r) = (transition s).presenting xs r := by
  have pstate : (s.presenting xs r).packet.pstate = s.packet.pstate := rfl
  rw [transition, transition, pstate]
  cases s.packet.pstate with
  | header1 => rfl
  | header2 => exact header2Done_presenting xs r (s.withTimer s.config.timeoutMs)
  | payload => exact payloadDone_presenting xs r (s.withTimer s.config.timeoutMs)
  | checksum => rfl
  | dummy => exact dummyDone_presenting xs r (s.withTimer s.config.timeoutMs)

theorem sampleRising_presenting (d : Bool) (s : State) :
    sampleRising d (s.presenting xs r) = (sampleRising d s).presenting xs r := by
  cases hs : s.sync.synced
  · rw [sampleRising_unsynced d hs, sampleRising_unsynced d (by exact hs), syncStep_presenting]
  · by_cases hm : s.shifter.mask >>> 1 = 0#16
    · rw [sampleRising_last d hs hm, sampleRising_last d (by exact hs) (by exact hm)]
      exact transition_presenting xs r (s.withShifter (sampleBit d s.shifter))
    · rw [sampleRising_within d hs hm, sampleRising_within d (by exact hs) (by exact hm)]
      rfl

/-- With another schedule alone. -/
theorem sampleRising_inputs (d : Bool) (s : State) :
    sampleRising d { s with inputs := xs } = (sampleRising d s).presenting xs s.result :=
  sampleRising_presenting xs s.result d s

theorem sendBit_presenting (d : Bool) (s : State) :
    (sendBit d (s.presenting xs r)).2 = (sendBit d s).2.presenting xs r := by
  cases hd : s.config.risingOnlyIsr
  · rw [sendBit_dual hd, sendBit_dual (by exact hd)]
    exact sampleRising_presenting xs r d (driveOut s)
  · rw [sendBit_rising hd, sendBit_rising (by exact hd)]
    exact congrArg driveOut (sampleRising_presenting xs r d s)

theorem sendBits_presenting (bits : List Bool) (s : State) :
    (sendBits bits (s.presenting xs r)).2 = (sendBits bits s).2.presenting xs r := by
  induction bits generalizing s with
  | nil => rfl
  | cons d ds ih => rw [sendBits, sendBits, sendBit_presenting, ih]

end

/-! ## Runs of edge operations -/

/-- The engine serves edge operations under the discipline `risingOnly` (40_bit_shifter.md R136), and the schedule is `xs`. -/
structure ServesEdges (risingOnly : Bool) (xs : List Input) (s : State) : Prop where
  control : controlPoint s = true
  ready : Ready s
  discipline : s.config.risingOnlyIsr = risingOnly
  inputs : s.inputs = xs

theorem ServesEdges.presenting {risingOnly : Bool} {xs : List Input} {s t : State} (h : ServesEdges risingOnly xs s)
    (same : SameEnvironment s t) (hc : controlPoint t = true) (ys : List Input) (r : Result) :
    ServesEdges risingOnly ys (t.presenting ys r) where
  control := hc
  ready := ⟨(congrArg Config.rawDump same.config).trans h.ready.1, same.initialised.trans h.ready.2⟩
  discipline := (congrArg Config.risingOnlyIsr same.config).trans h.discipline
  inputs := rfl

theorem ServesEdges.sendBit {risingOnly : Bool} {xs : List Input} {s : State} (h : ServesEdges risingOnly xs s)
    (d : Bool) (ys : List Input) (r : Result) : ServesEdges risingOnly ys ((sendBit d s).2.presenting ys r) :=
  h.presenting (sendBit_same d s) (controlPoint_sendBit d h.control) ys r

theorem ServesEdges.step_falling {d : Bool} {rest : List Input} {s : State}
    (h : ServesEdges false (encode (.onEdge false d) :: rest) s) :
    ∃ r, step s = .next ((driveOut s).presenting rest r) :=
  ⟨.level (driveOut s).shifter.sout, (step_cons_ok h.control h.inputs (by rfl)).trans
    (exec_onEdge_eq false d (by exact h.ready) (by exact h.discipline))⟩

theorem ServesEdges.step_rising {d : Bool} {rest : List Input} {s : State}
    (h : ServesEdges false (encode (.onEdge true d) :: rest) s) :
    ∃ r, step s = .next ((sampleRising d s).presenting rest r) := by
  have served := (step_cons_ok h.control h.inputs (by rfl)).trans
    (exec_onEdge_eq true d (by exact h.ready) (by exact h.discipline))
  rw [if_pos rfl, whenControlled_of (by exact h.control), sampleRising_inputs] at served
  exact ⟨_, served⟩

theorem ServesEdges.step_onRising {d : Bool} {rest : List Input} {s : State}
    (h : ServesEdges true (encode (.onRising d) :: rest) s) :
    ∃ r, step s = .next ((driveOut (sampleRising d s)).presenting rest r) := by
  have served := (step_cons_ok h.control h.inputs (by rfl)).trans
    (exec_onRising_eq d (by exact h.ready) (by exact h.discipline))
  rw [whenControlled_of (by exact h.control), sampleRising_inputs] at served
  exact ⟨_, served⟩

/-- The edge operations of one bit slot, served one by one, do to the engine what the slot does (30_encoding.md R122). -/
theorem ServesEdges.run_slot {risingOnly d : Bool} {rest : List Input} {s : State}
    (h : ServesEdges risingOnly (slotInputs risingOnly d ++ rest) s) (k : Nat) :
    ∃ r, Host.Core.run Sys2Proof.core (k + (slotInputs risingOnly d).length) s =
      Host.Core.run Sys2Proof.core k ((Machine.sendBit d s).2.presenting rest r) := by
  cases risingOnly with
  | true =>
    obtain ⟨r, served⟩ := h.step_onRising
    rw [sendBit_rising h.discipline]
    exact ⟨r, run_succ served⟩
  | false =>
    obtain ⟨r, fell⟩ := h.step_falling
    have low := h.presenting (driveOut_same s) h.control (encode (.onEdge true d) :: rest) r
    obtain ⟨q, rose⟩ := low.step_rising
    rw [sampleRising_presenting, State.presenting_presenting] at rose
    rw [sendBit_dual h.discipline]
    exact ⟨q, (run_succ fell).trans (run_succ rose)⟩

/-- The edge operations of several bit slots do what the slots do, whatever is scheduled behind them (R122). -/
theorem ServesEdges.run_slots {risingOnly : Bool} {bits : List Bool} {rest : List Input} {s : State}
    (h : ServesEdges risingOnly (bits.flatMap (slotInputs risingOnly) ++ rest) s) :
    ∃ r, Host.Core.run Sys2Proof.core (bits.flatMap (slotInputs risingOnly)).length s =
      .next ((sendBits bits s).2.presenting rest r) := by
  induction bits generalizing s with
  | nil =>
    obtain rfl : s.inputs = rest := h.inputs
    exact ⟨s.result, rfl⟩
  | cons d ds ih =>
    rw [List.flatMap_cons, List.append_assoc] at h
    obtain ⟨r, slot⟩ := h.run_slot (ds.flatMap (slotInputs risingOnly)).length
    obtain ⟨q, others⟩ := ih (h.sendBit d _ r)
    rw [sendBits_presenting, State.presenting_presenting] at others
    refine ⟨q, ?_⟩
    rw [List.flatMap_cons, List.length_append, Nat.add_comm, slot, others]
    rfl

/-! ## The obligation -/

/-- A command row is the sending of its encoded bytes (log 1). -/
theorem exec_eq_transmit {i : Instr} {bytes : List Byte} (hi : isCommandRow i = true) (he : encode i = .wire bytes)
    (s : State) : exec i s = transmit bytes s := by
  cases i with
  | cmdInit | cmdPrint | cmdData | cmdBreak | cmdInquiry | cmdUnknown => cases he; rfl
  | _ => cases hi

/-- Settles O53: `ServesEdges.run_slots` over the bits of the frame. -/
theorem frameIsTheRunOfItsEdges : Obligations.FrameIsTheRunOfItsEdges := by
  intro i bytes s hi he hr hc
  have start : ServesEdges s.config.risingOnlyIsr (byteInputs s.config.risingOnlyIsr bytes ++ s.inputs)
      (s.presenting (byteInputs s.config.risingOnlyIsr bytes ++ s.inputs) s.result) := ⟨hc, hr, rfl, rfl⟩
  obtain ⟨r, served⟩ := start.run_slots
  rw [sendBits_presenting, State.presenting_presenting, ← sendBytes_state] at served
  refine ⟨_, _, (exec_eq_transmit hi he s).trans (transmit_eq hr hc bytes), served, ?_⟩
  have schedule := (sendBytes_same bytes s).inputs
  rw [← schedule]
  rfl

end Sys2Proof.Machine
end

section
/-! A PRINT frame without payload (spec/30_encoding.md R109, 42_packet_fsm.md R162, R165, D12): the engine is in Payload after the
length, and takes the frame's last four bytes as the print instruction. -/

namespace Sys2Proof.Machine

/-! ## The payload of a PRINT -/

/-- A payload byte of a PRINT is taken: stored at the index, summed and counted, the timer refilled (42_packet_fsm.md R160,
R165). -/
def printTaken (s : State) (b : Byte) : State :=
  { s with
    packet := { s.packet with
      computedChecksum := s.packet.computedChecksum + zext16 b, dataIndex := s.packet.dataIndex + 1#16 }
    printInstruction := s.printInstruction.put s.packet.dataIndex b
    timer := s.config.timeoutMs }

theorem storePayload_print (b : Byte) {s : State} (hc : classify s.packet.command = .print) :
    storePayload b s = s.withPrintInstruction (s.printInstruction.put s.packet.dataIndex b) := by
  simp [storePayload, hc]

/-- A whole payload byte of a PRINT has been shifted in: it is taken, whatever the shifter holds beside it (R165). -/
theorem payloadTaken_print {b : Byte} {s : State} {h : Shifter} (hc : classify s.packet.command = .print)
    (hb : rxByte h = b) :
    payloadTaken ((s.withShifter h).withTimer s.config.timeoutMs) = (printTaken s b).withShifter h := by
  obtain rfl := hb
  rw [payloadTaken, storePayload_print _ (by exact hc)]
  rfl

/-- Arming the transfer that is about to start, with nothing to send, changes nothing (40_bit_shifter.md R131). -/
theorem QuietStart.armTransfer_eq {p : PState} {m : Mode} {s : State} (h : QuietStart p m s) :
    armTransfer p m 0#16 s = s := by
  have begun : beginTransfer m 0#16 s.shifter = s.shifter := by rw [beginTransfer_low m h.quiet.2, h.shifter]
  obtain ⟨_, rfl, _⟩ := h
  exact congrArg s.withShifter begun

/-- A payload byte of a PRINT that does not bring the index to the length: another payload byte follows (R165). -/
theorem sendByte_print (b : Byte) {s : State} (h : QuietStart .payload .byte s)
    (hc : classify s.packet.command = .print) (more : s.packet.dataIndex + 1#16 ≠ s.packet.dataLength) :
    sendByte b s = (0x00#8, printTaken s b) := by
  have next : QuietStart .payload .byte (printTaken s b) := ⟨h.synced, h.pstate, h.shifter⟩
  have taken := payloadTaken_print (h := { mode := .byte, mask := 0#16, rx := zext16 b, tx := 0#16, sout := false }) hc
    (loByte_zext16 b)
  rw [sendByte_quiet b h.synced h.quiet (by rw [h.shifter]; rfl) (by rw [h.shifter]) (by simp [h.pstate]),
    transition_payload (by exact h.pstate), h.shifter]
  refine congrArg (Prod.mk _) ?_
  calc payloadDone ((s.withShifter _).withTimer s.config.timeoutMs)
      = armTransfer .payload .byte 0#16 (payloadTaken ((s.withShifter _).withTimer s.config.timeoutMs)) :=
        if_neg (by exact more)
    _ = armTransfer .payload .byte 0#16 (printTaken s b) := by
        rw [taken, armTransfer_withShifter _ _ next.quiet.2 rfl]
    _ = printTaken s b := next.armTransfer_eq

/-- Payload bytes of a PRINT, none of which brings the index to the length (R165). -/
theorem sendBytes_print (bytes : List Byte) {s : State} (h : QuietStart .payload .byte s)
    (hc : classify s.packet.command = .print)
    (more : ∀ k < bytes.length, s.packet.dataIndex + BitVec.ofNat 16 (k + 1) ≠ s.packet.dataLength) :
    sendBytes bytes s = (List.replicate bytes.length 0x00#8, bytes.foldl printTaken s) := by
  induction bytes generalizing s with
  | nil => rfl
  | cons b bs ih =>
    have next : QuietStart .payload .byte (printTaken s b) := ⟨h.synced, h.pstate, h.shifter⟩
    have others := ih next hc fun k hk => by
      have later := more (k + 1) (Nat.succ_lt_succ hk)
      rwa [Nat.add_comm, BitVec.ofNat_add, ← BitVec.add_assoc] at later
    rw [sendBytes, sendByte_print b h hc (more 0 (Nat.succ_pos _))]
    simp only [others]
    rfl

/-! ## The header of a PRINT -/

theorem header2Done_print {s : State} (hc : classify s.packet.command = .print) :
    header2Done s =
      armTransfer .payload .byte 0#16
        (s.withPacket { s.packet with dataLength := clampPrint (rxWord s.shifter) }) := by
  simp [header2Done, hc]

/-- The engine before the first payload byte of a PRINT frame whose clamped length is `len` (42_packet_fsm.md R161, R162). -/
def printStart (comp : Byte) (len : Half) (s : State) : State :=
  { s with
    sync := { window := 0#16, synced := true }
    shifter := { mode := .byte, mask := 0x0080#16, rx := 0#16, tx := 0#16, sout := false }
    packet := { s.packet with
      pstate := .payload, command := 0x02#8, compression := comp, dataLength := len, dataIndex := 0#16,
      computedChecksum := 0#16 }
    timer := s.config.timeoutMs }

/-- The six bytes up to the payload of a PRINT frame (R162). -/
theorem sendBytes_printHeader (f : Frame) {s : State} (h : AwaitingPreamble s) :
    sendBytes [0x88#8, 0x33#8, 0x02#8, f.compression, loByte (frameLength f), hiByte (frameLength f)] s =
      (List.replicate 6 0x00#8, printStart f.compression (clampPrint (frameLength f)) s) := by
  rw [sendBytes_header _ _ _ _ h, header2Done_print (by rfl), State.withShifter_shifter, rxWord_wordLE]
  rfl

/-! ## The obligation -/

/-- A frame is its header, its payload and its tail (30_encoding.md R100). -/
theorem frameBytes_eq_tail (c : Byte) (f : Frame) :
    frameBytes c f = [0x88#8, 0x33#8, c, f.compression, loByte (frameLength f), hiByte (frameLength f)] ++ f.payload ++
      frameTail f := rfl

theorem controlPoint_of_awaitingPreamble {s : State} (h : AwaitingPreamble s) : controlPoint s = true := by
  obtain ⟨sync, mode, mask, _, pstate⟩ := h
  exact (controlPoint_unsynced (by rw [sync])).2 ⟨mode, mask, pstate⟩

/-- The four bytes after the header of a PRINT frame without payload are payload bytes: none brings the index to the length 0
(R165, D12). -/
theorem sendBytes_emptyPrint {f : Frame} {s : State} {b0 b1 b2 b3 : Byte} (h : AwaitingPreamble s) (hp : f.payload = [])
    (ht : frameTail f = [b0, b1, b2, b3]) :
    sendBytes (frameBytes 0x02#8 f) s =
      (List.replicate 10 0x00#8, [b0, b1, b2, b3].foldl printTaken (printStart f.compression 0#16 s)) := by
  have zero : clampPrint (frameLength f) = 0#16 := by rw [frameLength, hp]; rfl
  have more : ∀ k < 4, 0#16 + BitVec.ofNat 16 (k + 1) ≠ 0#16 := by decide
  have taken := sendBytes_print [b0, b1, b2, b3] (s := printStart f.compression 0#16 s) ⟨rfl, rfl, rfl⟩ rfl more
  rw [frameBytes_eq_tail, hp, ht, List.append_nil, sendBytes_append, sendBytes_printHeader f h, zero]
  simp only [taken]
  rfl

/-- Settles O47: the four bytes after the header are taken as payload bytes at the indices 0 to 3. -/
theorem emptyPrintFrameEntersPayload : Obligations.EmptyPrintFrameEntersPayload := by
  intro f s b0 b1 b2 b3 ⟨hr, await, _⟩ hp ht
  have sum : 0#16 + zext16 b0 + zext16 b1 + zext16 b2 + zext16 b3 = byteSum [b0, b1, b2, b3] := by
    simp [byteSum, zext16, BitVec.add_assoc]
  refine (transmit_eq hr (controlPoint_of_awaitingPreamble await) _).trans ?_
  rw [sendBytes_emptyPrint await hp ht, ← sum]
  rfl

end Sys2Proof.Machine
end

section
/-! The two disciplines of the bit shifter (spec/40_bit_shifter.md R133–R143): what an edge operation does and leaves, why
ON_RISING is a rising edge followed by a drive, why the master reads the same under both, and where on the line it reads. -/

namespace Sys2Proof.Machine

/-! ## One edge -/

theorem hasCode_onEdge : HasCode 0x03#8 (fun r => .onEdge r.clockLevel r.bit) := by
  intro r h
  simp [decode, decodeRequest, h]

theorem hasCode_onRising : HasCode 0x04#8 (fun r => .onRising r.bit) := by
  intro r h
  simp [decode, decodeRequest, h]

/-- The driven level as the statements write it (R134). -/
theorem driveLevel_eq_decide (h : Shifter) : driveLevel h = decide (h.tx &&& h.mask ≠ 0#16) := by
  rw [driveLevel, bne, decide_not]
  rfl

/-- Settles O34: a falling edge is a drive of the line. -/
theorem fallingEdgeDrivesTheLineOnly : Obligations.FallingEdgeDrivesTheLineOnly := by
  refine ⟨hasCode_onEdge, fun d s hr hd => ?_⟩
  rw [exec_onEdge_eq false d hr hd, ← driveLevel_eq_decide]
  rfl

/-- Settles O36: `sampleRising_within`, the rising edge that does not empty the mask. -/
theorem risingEdgeSamplesOneBit : Obligations.RisingEdgeSamplesOneBit := by
  intro d s hr hd hc hs hm
  rw [exec_onEdge_eq true d hr hd, if_pos rfl, whenControlled_of hc, sampleRising_within d hs hm]
  rfl

/-! ## The frame of an edge operation -/

/-- The next rising edge ends the transfer of packet state `p` (R133, 42_packet_fsm.md R160). -/
def EndsTransfer (p : PState) (s : State) : Prop :=
  s.sync.synced = true ∧ s.shifter.mask >>> 1 = 0#16 ∧ s.packet.pstate = p

theorem not_endsTransfer_or {p q : PState} {s : State}
    (h : ¬ (s.sync.synced = true ∧ s.shifter.mask >>> 1 = 0#16 ∧ (s.packet.pstate = p ∨ s.packet.pstate = q))) :
    ¬ (EndsTransfer p s ∨ EndsTransfer q s) := by
  rintro (⟨hs, hm, hp⟩ | ⟨hs, hm, hp⟩)
  · exact h ⟨hs, hm, .inl hp⟩
  · exact h ⟨hs, hm, .inr hp⟩

/-- What an edge leaves: the sequencer, the latches and the FIFO but at the end of the transfers that write them, and within a
transfer the timer, the packet fields and the synchroniser (R133, 42_packet_fsm.md R160–R170). -/
structure EdgeFrame (s t : State) : Prop where
  seq : t.seq = s.seq ∨ EndsTransfer .checksum s ∨ EndsTransfer .dummy s
  latches : (t.latches = s.latches ∧ t.resetReport = s.resetReport) ∨ EndsTransfer .dummy s
  fifo : t.fifo = s.fifo ∨ EndsTransfer .payload s ∨ EndsTransfer .dummy s
  within : s.sync.synced = true → s.shifter.mask >>> 1 ≠ 0#16 →
    t.timer = s.timer ∧ t.packet = s.packet ∧ t.sync = s.sync

theorem payloadDone_resetReport (s : State) : (payloadDone s).resetReport = s.resetReport := by
  have taken : (payloadTaken s).resetReport = s.resetReport := by
    unfold payloadTaken
    obtain ⟨_, h⟩ | ⟨_, h⟩ | ⟨_, _, h⟩ := storePayload_cases (rxByte s.shifter) s <;> rw [h] <;> rfl
  obtain ⟨_, e⟩ | ⟨_, e⟩ := payloadDone_cases s <;> rw [e, armTransfer_resetReport, taken]

theorem RisingEdge.edgeFrame {d : Bool} {s t : State} (e : RisingEdge d s t) : EdgeFrame s t := by
  cases e with
  | scan hs =>
    have outside : ¬ s.sync.synced = true := by simp [hs]
    obtain ⟨_, e⟩ | ⟨_, e⟩ := syncStep_cases d s <;> rw [e] <;>
      exact ⟨.inl rfl, .inl ⟨rfl, rfl⟩, .inl rfl, fun h => absurd h outside⟩
  | within hs hm => exact ⟨.inl rfl, .inl ⟨rfl, rfl⟩, .inl rfl, fun _ _ => ⟨rfl, rfl, rfl⟩⟩
  | header1 hs hm hp => exact ⟨.inl rfl, .inl ⟨rfl, rfl⟩, .inl rfl, fun _ h => absurd hm h⟩
  | header2 hs hm hp =>
    obtain ⟨_, _, e⟩ | ⟨_, e⟩ | ⟨_, e⟩ := header2Done_cases (lastSampled d s) <;> rw [e] <;>
      exact ⟨.inl rfl, .inl ⟨rfl, rfl⟩, .inl rfl, fun _ h => absurd hm h⟩
  | payload hs hm hp =>
    have taken := payloadTaken_frame (lastSampled d s)
    have report := payloadDone_resetReport (lastSampled d s)
    obtain ⟨_, e⟩ | ⟨_, e⟩ := payloadDone_cases (lastSampled d s) <;> rw [e] at report ⊢ <;>
      exact ⟨.inl taken.seq, .inl ⟨taken.latches, report⟩, .inr (.inl ⟨hs, hm, hp⟩), fun _ h => absurd hm h⟩
  | checksum hs hm hp =>
    exact ⟨.inr (.inl ⟨hs, hm, hp⟩), .inl ⟨rfl, rfl⟩, .inl rfl, fun _ h => absurd hm h⟩
  | dummy hs hm hp =>
    have ends : EndsTransfer .dummy s := ⟨hs, hm, hp⟩
    exact ⟨.inr (.inr ends), .inr ends, .inr (.inr ends), fun _ h => absurd hm h⟩

/-- A drive and the returned value are outside the frame (R134, R139). -/
theorem EdgeAnswer.edgeFrame {s t : State} (a : EdgeAnswer s t) : EdgeFrame s t := by
  cases a with
  | falling => exact ⟨.inl rfl, .inl ⟨rfl, rfl⟩, .inl rfl, fun _ _ => ⟨rfl, rfl, rfl⟩⟩
  | rising e =>
    obtain ⟨seq, latches, fifo, within⟩ := e.edgeFrame
    exact ⟨seq, latches, fifo, within⟩
  | risingThenDrive e =>
    obtain ⟨seq, latches, fifo, within⟩ := e.edgeFrame
    exact ⟨seq, latches, fifo, within⟩

/-- No event of the serial line draws an unspecified byte (log 6). -/
theorem keptOnTheLine_draws (n : Nat) : KeptOnTheLine (fun t => t.draws = n) where
  driveOut _ h := h
  sampleRising d u h := (sampleRising_same d u).draws.trans h
  withResult _ _ h := h

theorem isInitEngine_of_isEdgeOp {i : Instr} (h : isEdgeOp i = true) : isInitEngine i = false := by
  cases i with
  | initEngine cap => cases h
  | _ => rfl

/-- Settles O19: `SameInstance` and the draw counter at every edge operation, and the `EdgeFrame` of each of its answers. -/
theorem edgeOperationFrame : Obligations.EdgeOperationFrame := by
  intro i s t hi he
  obtain ⟨config, inputs, initialised, cap⟩ := exec_sameInstance (isInitEngine_of_isEdgeOp hi) he
  have draws := (keptOnTheLine_draws s.draws).edgeOp hi rfl he
  obtain ⟨seq, latches, fifo, within⟩ := (exec_edgeOp_answer hi he).edgeFrame
  exact ⟨initialised, config, inputs, draws, cap, fun h => seq.resolve_right (not_endsTransfer_or h),
    fun h => latches.resolve_right h, fun h => fifo.resolve_right (not_endsTransfer_or h), within⟩

/-! ## A rising edge does not ask for the discipline -/

/-- The state with the edge discipline `r` built (R136). -/
def State.underDiscipline (r : Bool) (s : State) : State := s.withConfig { s.config with risingOnlyIsr := r }

section
variable (r : Bool)

theorem preDummy_discipline (cfg : Config) (c : Byte) (q : Sequencer) :
    preDummy { cfg with risingOnlyIsr := r } c q = preDummy cfg c q := by
  unfold preDummy
  cases classify c <;> rfl

theorem syncStep_underDiscipline (d : Bool) (s : State) :
    syncStep d (s.underDiscipline r) = (syncStep d s).underDiscipline r := by
  obtain ⟨h, e⟩ | ⟨h, e⟩ := syncStep_cases d s <;> rw [e]
  · exact if_pos h
  · exact if_neg h

theorem header2Done_underDiscipline (s : State) :
    header2Done (s.underDiscipline r) = (header2Done s).underDiscipline r := by
  have command : (s.underDiscipline r).packet.command = s.packet.command := rfl
  have shifter : (s.underDiscipline r).shifter = s.shifter := rfl
  rw [header2Done, header2Done, command, shifter]
  cases classify s.packet.command with
  | data =>
    dsimp only
    split <;> rfl
  | _ => rfl

theorem storePayload_underDiscipline (b : Byte) (s : State) :
    storePayload b (s.underDiscipline r) = (storePayload b s).underDiscipline r := by
  have command : (s.underDiscipline r).packet.command = s.packet.command := rfl
  rw [storePayload, storePayload, command]
  cases classify s.packet.command <;> rfl

theorem payloadDone_underDiscipline (s : State) :
    payloadDone (s.underDiscipline r) = (payloadDone s).underDiscipline r := by
  have taken : payloadTaken (s.underDiscipline r) = (payloadTaken s).underDiscipline r := by
    have shifter : (s.underDiscipline r).shifter = s.shifter := rfl
    rw [payloadTaken, shifter, storePayload_underDiscipline]
    rfl
  obtain ⟨h, e⟩ | ⟨h, e⟩ := payloadDone_cases s <;> rw [e]
  · exact (if_pos h).trans (congrArg (armTransfer .checksum .wordLE 0#16) taken)
  · exact (if_neg h).trans (congrArg (armTransfer .payload .byte 0#16) taken)

theorem checksumDone_underDiscipline (s : State) :
    checksumDone (s.underDiscipline r) = (checksumDone s).underDiscipline r := by
  have seq : checksumSeq (s.underDiscipline r) = checksumSeq s := preDummy_discipline r s.config _ _
  rw [checksumDone_eq, checksumDone_eq, seq]
  rfl

theorem dummyDone_underDiscipline (s : State) : dummyDone (s.underDiscipline r) = (dummyDone s).underDiscipline r := by
  obtain ⟨h, e⟩ | ⟨h, e⟩ := dummyDone_cases s <;> rw [e]
  · exact if_neg h
  · exact if_pos h

theorem transition_underDiscipline (s : State) :
    transition (s.underDiscipline r) = (transition s).underDiscipline r := by
  have pstate : (s.underDiscipline r).packet.pstate = s.packet.pstate := rfl
  rw [transition, transition, pstate]
  cases s.packet.pstate with
  | header1 => rfl
  | header2 => exact header2Done_underDiscipline r (s.withTimer s.config.timeoutMs)
  | payload => exact payloadDone_underDiscipline r (s.withTimer s.config.timeoutMs)
  | checksum => exact checksumDone_underDiscipline r (s.withTimer s.config.timeoutMs)
  | dummy => exact dummyDone_underDiscipline r (s.withTimer s.config.timeoutMs)

/-- Both disciplines share the rising edge (R133, R136). -/
theorem sampleRising_underDiscipline (d : Bool) (s : State) :
    sampleRising d (s.underDiscipline r) = (sampleRising d s).underDiscipline r := by
  cases hs : s.sync.synced
  · rw [sampleRising_unsynced d hs, sampleRising_unsynced d (by exact hs), syncStep_underDiscipline]
  · by_cases hm : s.shifter.mask >>> 1 = 0#16
    · rw [sampleRising_last d hs hm, sampleRising_last d (by exact hs) (by exact hm)]
      exact transition_underDiscipline r (s.withShifter (sampleBit d s.shifter))
    · rw [sampleRising_within d hs hm, sampleRising_within d (by exact hs) (by exact hm)]
      rfl

end

/-- Settles O43: the two operations sample with the same `sampleRising`, and ON_RISING drives behind it. -/
theorem onRisingIsTheRisingEdgeThenADrive : Obligations.OnRisingIsTheRisingEdgeThenADrive := by
  refine ⟨hasCode_onRising, fun d s hr hd hc => ⟨returnSout ((sampleRising d s).underDiscipline false), ?_, ?_⟩⟩
  · show exec (.onEdge true d) (s.underDiscipline false) = _
    rw [exec_onEdge_eq true d (by exact hr) rfl, if_pos rfl, whenControlled_of (by exact hc), sampleRising_underDiscipline]
  · rw [exec_onRising_eq d hr hd, whenControlled_of hc, ← driveLevel_eq_decide, ← (sampleRising_same d s).config]
    rfl

/-! ## The two disciplines side by side -/

/-- The engines `a` and `b` differ in the discipline, and in the level on the line until `a` has its falling edge: `b`, under
rising-only, holds the level already that `a`, under dual-edge, is about to drive (R134, R135, R141). -/
structure Alongside (a b : State) : Prop where
  rising : RisingOnly b
  driven : driveOut a = b.underDiscipline false

theorem Alongside.dual {a b : State} (h : Alongside a b) : DualEdge a :=
  congrArg (fun s => s.config.risingOnlyIsr) h.driven

/-- Nothing but the discipline and the level on the line differs (R141). -/
theorem Alongside.eq {a b : State} (h : Alongside a b) :
    a = { b with
      config := { b.config with risingOnlyIsr := false }, shifter := { b.shifter with sout := a.shifter.sout } } :=
  congrArg (fun s => s.withShifter { s.shifter with sout := a.shifter.sout }) h.driven

/-- In one bit slot the master reads the same level of both (R141). -/
theorem Alongside.sendBit_level {a b : State} (h : Alongside a b) (d : Bool) : (sendBit d a).1 = (sendBit d b).1 := by
  rw [sendBit_dual h.dual, sendBit_rising h.rising]
  exact congrArg (fun s => s.shifter.sout) h.driven

theorem Alongside.sendBit {a b : State} (h : Alongside a b) (d : Bool) :
    Alongside (sendBit d a).2 (sendBit d b).2 where
  rising := (congrArg Config.risingOnlyIsr (sendBit_same d b).config).trans h.rising
  driven := by
    rw [sendBit_dual h.dual, sendBit_rising h.rising, h.driven, sampleRising_underDiscipline]
    rfl

theorem Alongside.sendBits {a b : State} (h : Alongside a b) (bits : List Bool) :
    (sendBits bits a).1 = (sendBits bits b).1 ∧ Alongside (sendBits bits a).2 (sendBits bits b).2 := by
  induction bits generalizing a b with
  | nil => exact ⟨rfl, h⟩
  | cons d ds ih =>
    obtain ⟨levels, after⟩ := ih (h.sendBit d)
    exact ⟨congrArg₂ List.cons (h.sendBit_level d) levels, after⟩

theorem Alongside.sendBytes {a b : State} (h : Alongside a b) (bytes : List Byte) :
    (sendBytes bytes a).1 = (sendBytes bytes b).1 ∧ Alongside (sendBytes bytes a).2 (sendBytes bytes b).2 := by
  induction bytes generalizing a b with
  | nil => exact ⟨rfl, h⟩
  | cons byte bytes ih =>
    obtain ⟨levels, sent⟩ := h.sendBits (byteBits byte)
    obtain ⟨back, after⟩ := ih sent
    exact ⟨congrArg₂ List.cons (congrArg bitsByte levels) back, after⟩

/-- Awaiting the preamble the line is low and stays low when driven (10_state.md R38). -/
theorem driveOut_of_awaitingPreamble {s : State} (h : AwaitingPreamble s) : driveOut s = s := by
  obtain ⟨_, _, mask, low, _⟩ := h
  have level : driveLevel s.shifter = s.shifter.sout := by simp [driveLevel, mask, low]
  rw [driveOut, level]
  rfl

/-- Settles O55: the engines start `Alongside` each other, and every slot keeps them so. -/
theorem bothDisciplinesLookAlikeOnTheWire : Obligations.BothDisciplinesLookAlikeOnTheWire := by
  intro bytes s await
  have start : Alongside (s.underDiscipline false) (s.underDiscipline true) :=
    ⟨rfl, driveOut_of_awaitingPreamble (s := s.underDiscipline false) await⟩
  obtain ⟨back, after⟩ := start.sendBytes bytes
  have ends := after.eq
  rw [(sendBytes_same bytes (s.underDiscipline true)).config] at ends
  exact ⟨back, ends⟩

/-! ## Where the master reads -/

/-- Eight bits are read back from the byte they make (20_memory.md R81). -/
theorem byteBits_bitsByte {bits : List Bool} (h : bits.length = 8) : byteBits (bitsByte bits) = bits := by
  have eight : ∀ b7 b6 b5 b4 b3 b2 b1 b0 : Bool,
      byteBits (bitsByte [b7, b6, b5, b4, b3, b2, b1, b0]) = [b7, b6, b5, b4, b3, b2, b1, b0] := by decide
  match bits, h with
  | [b7, b6, b5, b4, b3, b2, b1, b0], _ => exact eight b7 b6 b5 b4 b3 b2 b1 b0

theorem sendBits_length (bits : List Bool) (s : State) : (sendBits bits s).1.length = bits.length := by
  induction bits generalizing s with
  | nil => rfl
  | cons d ds ih => exact congrArg Nat.succ (ih _)

/-- The bits of the bytes the master reads are the levels it reads slot by slot (20_memory.md R81). -/
theorem sendBytes_bits (bytes : List Byte) (s : State) :
    (sendBytes bytes s).1.flatMap byteBits = (sendBits (bytes.flatMap byteBits) s).1 := by
  induction bytes generalizing s with
  | nil => rfl
  | cons b bs ih =>
    have byte : byteBits (sendByte b s).1 = (sendBits (byteBits b) s).1 := byteBits_bitsByte (sendBits_length _ s)
    rw [List.flatMap_cons, sendBits_append]
    exact congrArg₂ (· ++ ·) byte (ih _)

theorem sendBit_level_presenting (xs : List Input) (r : Result) (d : Bool) (s : State) :
    (sendBit d (s.presenting xs r)).1 = (sendBit d s).1 := by
  cases hd : s.config.risingOnlyIsr
  · rw [sendBit_dual hd, sendBit_dual (by exact hd)]
    rfl
  · rw [sendBit_rising hd, sendBit_rising (by exact hd)]
    rfl

theorem sendBits_levels_presenting (xs : List Input) (r : Result) (bits : List Bool) (s : State) :
    (sendBits bits (s.presenting xs r)).1 = (sendBits bits s).1 := by
  induction bits generalizing s with
  | nil => rfl
  | cons d ds ih => rw [sendBits, sendBits, sendBit_level_presenting, sendBit_presenting, ih]

/-- The steps that serve the edge operations of `k` whole slots and, under dual-edge, the falling edge of the next one. -/
def stepsBeforeRising (risingOnly : Bool) (k : Nat) : Nat := if risingOnly then k else 2 * k + 1

theorem stepsBeforeRising_succ (risingOnly d : Bool) (k : Nat) :
    stepsBeforeRising risingOnly (k + 1) = stepsBeforeRising risingOnly k + (slotInputs risingOnly d).length := by
  cases risingOnly
  · exact congrArg Nat.succ (Nat.mul_succ 2 k)
  · rfl

/-- Served up to just before the rising edge of the first slot, the engine holds the level the master reads there (R143). -/
theorem ServesEdges.run_before_first {risingOnly d : Bool} {rest : List Input} {s : State}
    (h : ServesEdges risingOnly (slotInputs risingOnly d ++ rest) s) :
    ∃ v, Host.Core.run Sys2Proof.core (stepsBeforeRising risingOnly 0) s = .next v ∧
      (Machine.sendBit d s).1 = v.shifter.sout := by
  cases risingOnly with
  | true => exact ⟨s, rfl, by rw [sendBit_rising h.discipline]⟩
  | false =>
    obtain ⟨r, fell⟩ := h.step_falling
    exact ⟨_, run_succ fell, by rw [sendBit_dual h.discipline]; rfl⟩

/-- Served up to just before the rising edge of slot `k`, the engine holds the `k`-th level the master reads (R143). -/
theorem ServesEdges.run_before_rising {risingOnly : Bool} {bits : List Bool} {rest : List Input} {k : Nat} {s : State}
    (h : ServesEdges risingOnly (bits.flatMap (slotInputs risingOnly) ++ rest) s) (hk : k < bits.length) :
    ∃ v, Host.Core.run Sys2Proof.core (stepsBeforeRising risingOnly k) s = .next v ∧
      (sendBits bits s).1[k]? = some v.shifter.sout := by
  induction bits generalizing s k with
  | nil => cases hk
  | cons d ds ih =>
    rw [List.flatMap_cons, List.append_assoc] at h
    cases k with
    | zero =>
      obtain ⟨v, served, level⟩ := h.run_before_first
      exact ⟨v, served, congrArg some level⟩
    | succ k =>
      obtain ⟨r, slot⟩ := h.run_slot (stepsBeforeRising risingOnly k)
      obtain ⟨v, served, level⟩ := ih (h.sendBit d _ r) (Nat.lt_of_succ_lt_succ hk)
      rw [sendBits_levels_presenting] at level
      exact ⟨v, by rw [stepsBeforeRising_succ risingOnly d, slot, served], level⟩

theorem length_flatMap_byteBits (bytes : List Byte) : (bytes.flatMap byteBits).length = 8 * bytes.length := by
  simp [List.length_flatMap, byteBits, Nat.mul_comm]

/-- Settles O54: `ServesEdges.run_before_rising` over the bits of the frame. -/
theorem masterReadsTheLineBeforeEachRisingEdge : Obligations.MasterReadsTheLineBeforeEachRisingEdge := by
  intro i bytes s k hi he hr hc hk
  have start : ServesEdges s.config.risingOnlyIsr (byteInputs s.config.risingOnlyIsr bytes ++ s.inputs)
      (s.presenting (byteInputs s.config.risingOnlyIsr bytes ++ s.inputs) s.result) := ⟨hc, hr, rfl, rfl⟩
  obtain ⟨v, served, level⟩ := start.run_before_rising (by rwa [length_flatMap_byteBits])
  rw [sendBits_levels_presenting, ← sendBytes_bits] at level
  exact ⟨_, _, v, (exec_eq_transmit hi he s).trans (transmit_eq hr hc bytes), rfl, served, level⟩

end Sys2Proof.Machine
end

section
/-! The preamble synchroniser (spec/41_preamble_sync.md R150–R156): what a rising edge does before the sync word, why the window
holds the sync word exactly when the bits end with it, and why noise in front of a sync word leaves no trace. -/

namespace Sys2Proof.Machine

/-! ## One rising edge -/

/-- Settles O35: the two cases of `syncStep_cases`. -/
theorem risingEdgeFeedsTheSynchroniser : Obligations.RisingEdgeFeedsTheSynchroniser := by
  intro d s hr hd hc hs
  rw [exec_onEdge_eq true d hr hd, if_pos rfl, whenControlled_of hc, sampleRising_unsynced d hs]
  obtain ⟨hw, e⟩ | ⟨hw, e⟩ := syncStep_cases d s <;> rw [e]
  · exact ⟨fun h => absurd hw h, fun _ => rfl⟩
  · rw [← hs]
    exact ⟨fun _ => rfl, fun h => absurd h hw⟩

/-! ## The window as the last bits of the line -/

theorem shiftWindow_getLsbD_zero (d : Bool) (w : Half) : (shiftWindow d w).getLsbD 0 = d := by
  cases d <;> simp [shiftWindow]

theorem shiftWindow_getLsbD_succ (d : Bool) (w : Half) {i : Nat} (hi : i + 1 < 16) :
    (shiftWindow d w).getLsbD (i + 1) = w.getLsbD i := by
  cases d <;> simp [shiftWindow, hi, BitVec.getLsbD_eq_getElem (Nat.lt_of_succ_lt hi)]

theorem scanBits_concat (bits : List Bool) (d : Bool) (w : Half) :
    scanBits (bits ++ [d]) w = shiftWindow d (scanBits bits w) := by
  simp [scanBits]

/-- Bit `i` of the window is the `i`-th bit counted from the end of those sent, and 0 where there is none (R150). -/
theorem scanBits_getLsbD (bits : List Bool) {i : Nat} (hi : i < 16) :
    (scanBits bits 0#16).getLsbD i = bits.reverse.getD i false := by
  induction bits using List.reverseRecOn generalizing i with
  | nil => exact BitVec.getLsbD_zero
  | append_singleton bits d ih =>
    rw [scanBits_concat, List.reverse_concat]
    cases i with
    | zero => exact shiftWindow_getLsbD_zero d _
    | succ i => exact (shiftWindow_getLsbD_succ d _ hi).trans (ih (Nat.lt_of_succ_lt hi))

theorem magic_getLsbD : ∀ i < 16, magic.getLsbD i = magicBits.reverse.getD i false := by decide

/-- The window holds the sync word exactly when the bits sent end with it: its top bit is 1, so 16 bits have been sent (R150). -/
theorem scanBits_eq_magic_iff (bits : List Bool) : scanBits bits 0#16 = magic ↔ magicBits <:+ bits := by
  constructor
  · intro h
    have agree : ∀ i < 16, bits.reverse.getD i false = magicBits.reverse.getD i false := fun i hi => by
      rw [← scanBits_getLsbD bits hi, h, magic_getLsbD i hi]
    have long : 15 < bits.reverse.length := by
      by_contra short
      have top := agree 15 (by decide)
      rw [List.getD_eq_default _ _ (Nat.le_of_not_lt short)] at top
      exact absurd top (by decide)
    refine List.reverse_prefix.mp (List.prefix_iff_getElem.mpr ⟨long, fun i hi => ?_⟩)
    have bit := agree i hi
    rw [List.getD_eq_getElem _ _ hi, List.getD_eq_getElem _ _ (Nat.lt_of_lt_of_le hi long)] at bit
    exact bit.symm
  · rintro ⟨before, rfl⟩
    refine BitVec.eq_of_getLsbD_eq fun i hi => ?_
    rw [scanBits_getLsbD _ hi, magic_getLsbD i hi, List.reverse_append]
    exact List.getD_append _ _ _ _ hi

/-! ## Where the first match comes -/

theorem noMatch_concat (bits : List Bool) (d : Bool) (w : Half) :
    noMatch (bits ++ [d]) w = (noMatch bits w && scanBits (bits ++ [d]) w != magic) := by
  induction bits generalizing w with
  | nil => exact Bool.and_comm _ _
  | cons b bs ih => exact (congrArg _ (ih _)).trans (Bool.and_assoc _ _ _).symm

/-- Bits that contain no sync word complete none, from an empty window (R154). -/
theorem noMatch_of_not_infix {bits : List Bool} (h : ¬ magicBits <:+: bits) : noMatch bits 0#16 = true := by
  induction bits using List.reverseRecOn with
  | nil => rfl
  | append_singleton bits d ih =>
    have before : ¬ magicBits <:+: bits := fun hb => h (hb.trans (List.prefix_append bits [d]).isInfix)
    have here : scanBits (bits ++ [d]) 0#16 ≠ magic := fun hm => h ((scanBits_eq_magic_iff _).mp hm).isInfix
    rw [noMatch_concat, ih before, Bool.true_and, bne_iff_ne]
    exact here

/-- Bits whose last one completes the first sync word among them leave what the match leaves, and nothing else (R150, R151). -/
theorem sendBits_first_match {bits : List Bool} {d : Bool} {s : State} (h : AwaitingPreamble s)
    (before : ¬ magicBits <:+: bits) (ends : magicBits <:+ bits ++ [d]) : (sendBits (bits ++ [d]) s).2 = syncMatch s := by
  obtain ⟨sync, _, mask, low, _⟩ := h
  have scanned := sendBits_scan bits (s := s) (by rw [sync]) mask low (by rw [sync]; exact noMatch_of_not_infix before)
  have full : shiftWindow d (scanBits bits s.sync.window) = magic := by
    rw [sync, ← scanBits_concat]
    exact (scanBits_eq_magic_iff _).mpr ends
  have matched : syncStep d (s.withSync { window := scanBits bits s.sync.window, synced := false }) = syncMatch s :=
    if_pos full
  rw [sendBits_append, scanned]
  simp only [sendBits]
  rw [sendBit_unsynced d (by rfl) (by exact mask) (by exact low), matched]
  exact settle_of_quiet ⟨rfl, low⟩

/-! ## Noise before the sync word -/

/-- The sync word overlaps itself by its first bit only (R155). -/
theorem magicBits_overlap :
    ∀ c ∈ magicBits.tails, c ∈ (magicBits.take 15).inits → c = [] ∨ c = magicBits.take 1 := by decide

/-- Behind noise that holds no sync word and does not end with its first 15 bits, no sync word ends before the real one (R154,
R155). -/
theorem not_infix_noise_append {noise : List Bool} (within : ¬ magicBits <:+: noise)
    (ends : ¬ magicBits.take 15 <:+ noise) : ¬ magicBits <:+: noise ++ magicBits.take 15 := by
  rintro ⟨before, after, e⟩
  obtain ⟨rest, e, _⟩ | ⟨overlap, e, sync⟩ := List.append_eq_append_iff.mp e
  · exact within ⟨before, rest, e.symm⟩
  · have start : overlap <+: magicBits.take 15 := ⟨after, sync.symm⟩
    have tail : overlap <:+ magicBits :=
      List.suffix_of_suffix_length_le ⟨noise, e.symm⟩ (List.suffix_append before magicBits)
        (start.length_le.trans (by decide))
    obtain rfl | rfl := magicBits_overlap overlap ((List.mem_tails _ _).mpr tail) ((List.mem_inits _ _).mpr start)
    · exact within ⟨before, [], by rw [List.append_nil, e, List.append_nil]⟩
    · have split : before ++ magicBits.take 15 ++ [true] = noise ++ [true] := (List.append_assoc _ _ _).trans e
      exact ends ⟨before, List.append_cancel_right split⟩

/-- Such noise and a sync word leave what the match leaves (R151, R154). -/
theorem sendBits_noise_sync {noise : List Bool} {s : State} (h : AwaitingPreamble s) (within : ¬ magicBits <:+: noise)
    (ends : ¬ magicBits.take 15 <:+ noise) : (sendBits (noise ++ magicBits) s).2 = syncMatch s := by
  have split : noise ++ magicBits.take 15 ++ [true] = noise ++ magicBits := List.append_assoc _ _ _
  have matched := sendBits_first_match h (not_infix_noise_append within ends) (d := true)
    (by rw [split]; exact List.suffix_append noise magicBits)
  rwa [split] at matched

/-- Settles O56: with the noise and without it, the sync word leaves the state of the match. -/
theorem noiseBeforeAFrameIsHarmless : Obligations.NoiseBeforeAFrameIsHarmless := by
  intro noise rest s await within ends
  have noisy : (sendBits (noise ++ magicBits) s).2 = syncMatch s := sendBits_noise_sync await within ends
  have clean : (sendBits magicBits s).2 = syncMatch s := sendBits_noise_sync (noise := []) await (by decide) (by decide)
  have noisyLength : (sendBits (noise ++ magicBits) s).1.length = noise.length + 16 :=
    (sendBits_length _ s).trans List.length_append
  have cleanLength : (sendBits magicBits s).1.length = 16 := sendBits_length _ s
  rw [sendBits_append _ rest, sendBits_append _ rest, noisy, clean]
  exact ⟨rfl, (List.drop_left' noisyLength).trans (List.drop_left' cleanLength).symm⟩

end Sys2Proof.Machine
end

section
/-! The edges that complete a transfer (spec/42_packet_fsm.md R160–R170): where the last bit leaves the engine, and what each
transition makes of it. -/

namespace Sys2Proof.Machine

/-! ## The last bit of a transfer -/

/-- The mode of the transfer that serves a packet state (10_state.md R53 (b)). -/
def transferMode : PState → Mode
  | .header1 => .wordBE
  | .header2 => .wordLE
  | .payload => .byte
  | .checksum => .wordLE
  | .dummy => .wordBE

theorem pairOk_iff (p : PState) (m : Mode) : pairOk p m = true ↔ m = transferMode p := by
  cases p <;> cases m <;> decide

/-- What the end of a transfer of packet state `p` runs (42_packet_fsm.md R160). -/
def transferDone : PState → State → State
  | .header1 => header1Done
  | .header2 => header2Done
  | .payload => payloadDone
  | .checksum => checksumDone
  | .dummy => dummyDone

theorem transition_eq (s : State) : transition s = transferDone s.packet.pstate (s.withTimer s.config.timeoutMs) := by
  unfold transition
  cases s.packet.pstate <;> rfl

/-- A transfer of packet state `p` is complete: its last bit is in `rx` and the timer refilled (40_bit_shifter.md R133,
42_packet_fsm.md R160). -/
def transferComplete (p : PState) (d : Bool) (s : State) : State :=
  { s with
    shifter := { s.shifter with mode := transferMode p, mask := 0#16, rx := sampledRx d s }
    timer := s.config.timeoutMs }

theorem lastSampled_of_lastBit {p : PState} (d : Bool) {s : State} (h : LastBitOf p s) :
    lastSampled d s = transferComplete p d s := by
  obtain ⟨_, _, mask, pair⟩ := h
  rw [transferComplete, ← (pairOk_iff _ _).1 pair, lastSampled, sampleBit, mask]
  rfl

theorem controlPoint_of_lastBit {p : PState} {s : State} (h : LastBitOf p s) : controlPoint s = true := by
  obtain ⟨synced, rfl, mask, pair⟩ := h
  exact (controlPoint_synced synced).2 ⟨by rw [mask]; decide, pair⟩

/-- The rising edge that completes a transfer runs what ends its packet state (R133, R139, R160). -/
theorem exec_onEdge_lastBit {p : PState} (d : Bool) {s : State} (hr : Ready s) (hd : DualEdge s) (h : LastBitOf p s) :
    exec (.onEdge true d) s = .next (returnSout (transferDone p (transferComplete p d s))) := by
  obtain ⟨synced, pstate, mask, _⟩ := id h
  have last : s.shifter.mask >>> 1 = 0#16 := by rw [mask]; rfl
  rw [exec_onEdge_eq true d hr hd, if_pos rfl, whenControlled_of (controlPoint_of_lastBit h), sampleRising_last d synced last,
    transition_eq, ← lastSampled_of_lastBit d h, ← pstate]
  rfl

/-! ## Header1 and Header2 -/

/-- Settles O37: `Header1Done` on the completed word. -/
theorem header1EdgeTakesCommandAndCompression : Obligations.Header1EdgeTakesCommandAndCompression :=
  fun d _ hr hd h => exec_onEdge_lastBit d hr hd h

/-- A command without payload goes from Header2 to Checksum (R162). -/
theorem header2Done_other {s : State} (data : classify s.packet.command ≠ .data) (print : classify s.packet.command ≠ .print) :
    header2Done s =
      armTransfer .checksum .wordLE 0#16 (s.withPacket { s.packet with dataLength := rxWord s.shifter }) := by
  obtain ⟨h, _⟩ | ⟨h, _⟩ | ⟨_, e⟩ := header2Done_cases s
  · exact absurd h data
  · exact absurd h print
  · exact e

/-- PRINT's clamp as the statements write it (R162). -/
theorem clampPrint_eq_ite (len : Half) : clampPrint len = if 4#16 < len then 4#16 else len := by
  simp only [clampPrint, ← BitVec.not_lt, ite_not]

/-- Settles O38: the command byte and the length choose the branch of `Header2Done`. -/
theorem header2EdgeDispatchesByCommand : Obligations.Header2EdgeDispatchesByCommand := by
  intro d s hr hd h
  dsimp only
  rw [exec_onEdge_lastBit d hr hd h, transferDone]
  refine ⟨fun data nonempty => ?_, fun data empty => ?_, fun print => ?_, fun print data => ?_⟩
  · rw [header2Done_data (by exact (classify_eq_data _).2 data), if_neg (by exact nonempty)]
    rfl
  · rw [header2Done_data (by exact (classify_eq_data _).2 data), if_pos (by exact empty)]
    rfl
  · rw [header2Done_print (by exact (classify_eq_print _).2 print), clampPrint_eq_ite]
    rfl
  · rw [header2Done_other (by exact mt (classify_eq_data _).1 data) (by exact mt (classify_eq_print _).1 print)]
    rfl

/-! ## Payload -/

/-- What storing a payload byte writes (R165). -/
theorem storePayload_eq (b : Byte) (s : State) :
    storePayload b s = { s with
      fifo := if s.packet.command = 0x04#8 then ringEnqueue s.config.stageOnChecksum b s.fifo else s.fifo
      printInstruction :=
        if s.packet.command = 0x02#8 then s.printInstruction.put s.packet.dataIndex b else s.printInstruction } := by
  simp only [← classify_eq_data, ← classify_eq_print]
  obtain ⟨hc, e⟩ | ⟨hc, e⟩ | ⟨data, print, e⟩ := storePayload_cases b s <;> rw [e]
  · simp [hc, State.withFifo]
  · simp [hc, State.withPrintInstruction]
  · simp [data, print]

/-- What the end of a payload byte writes: the sum, the index, the store of the command, and the next transfer (R165). -/
theorem payloadDone_eq (s : State) :
    payloadDone s = { s with
      packet := { s.packet with
        computedChecksum := s.packet.computedChecksum + zext16 (rxByte s.shifter)
        dataIndex := s.packet.dataIndex + 1#16
        pstate := if s.packet.dataIndex + 1#16 = s.packet.dataLength then .checksum else .payload }
      shifter :=
        if s.packet.dataIndex + 1#16 = s.packet.dataLength then beginTransfer .wordLE 0#16 s.shifter
        else beginTransfer .byte 0#16 s.shifter
      fifo :=
        if s.packet.command = 0x04#8 then ringEnqueue s.config.stageOnChecksum (rxByte s.shifter) s.fifo else s.fifo
      printInstruction :=
        if s.packet.command = 0x02#8 then s.printInstruction.put s.packet.dataIndex (rxByte s.shifter)
        else s.printInstruction } := by
  obtain ⟨last, e⟩ | ⟨more, e⟩ := payloadDone_cases s <;> rw [e, payloadTaken, storePayload_eq]
  · simp only [if_pos last]
    rfl
  · simp only [if_neg more]
    rfl

/-- A byte for which there is room enters the FIFO (20_memory.md R74). -/
theorem ringEnqueue_of_room (stage : Bool) (b : Byte) {f : Fifo}
    (room : f.committed.length + f.staged.length < f.cap) :
    ringEnqueue stage b f =
      if stage then { f with staged := f.staged ++ [b] } else { f with committed := f.committed ++ [b] } :=
  if_neg (Nat.not_le.2 room)

/-- A byte for which there is no room is dropped (R74). -/
theorem ringEnqueue_of_full (stage : Bool) (b : Byte) {f : Fifo}
    (full : ¬ f.committed.length + f.staged.length < f.cap) : ringEnqueue stage b f = f :=
  if_pos (Nat.not_lt.1 full)

/-- Settles O39: `PayloadDone` on the completed byte, then the cases of the room in the FIFO and of the index. -/
theorem payloadEdgeStoresAndSumsTheByte : Obligations.PayloadEdgeStoresAndSumsTheByte := by
  intro d s hr hd h
  dsimp only
  rw [exec_onEdge_lastBit d hr hd h, transferDone, payloadDone_eq]
  refine ⟨_, rfl, rfl, rfl, fun data room on => ?_, fun data room off => ?_, fun other => ?_, fun print i => ?_,
    fun print i => ?_, fun print i => ?_, fun print i => ?_, fun other => ?_, rfl, rfl, rfl, rfl, rfl, rfl, ?_⟩
  · exact (if_pos data).trans ((ringEnqueue_of_room _ _ room).trans (if_pos on))
  · exact (if_pos data).trans ((ringEnqueue_of_room _ _ room).trans (if_neg (ne_true_of_eq_false off)))
  · obtain nodata | full := other
    · exact if_neg nodata
    · exact (congrArg (ite _ · s.fifo) (ringEnqueue_of_full _ _ full)).trans (ite_self _)
  · exact (if_pos print).trans (if_pos i)
  · exact (if_pos print).trans (congrArg (PrintInstruction.put · _ _) i)
  · exact (if_pos print).trans (congrArg (PrintInstruction.put · _ _) i)
  · exact (if_pos print).trans (congrArg (PrintInstruction.put · _ _) i)
  · obtain noprint | high := other
    · exact if_neg noprint
    · have kept := PrintInstruction.put_of_ge (BitVec.not_lt.2 high)
      exact (congrArg (ite _ · s.printInstruction) (kept _ _)).trans (ite_self _)
  · exact congrArg Result.level ((apply_ite Shifter.sout _ _ _).trans (ite_self _))

/-! ## Checksum -/

/-- Folding in the header adds its four bytes (R168, R171). -/
theorem foldHeader_eq (p : Packet) :
    foldHeader p = p.computedChecksum + headerSum p.command p.compression p.dataLength := by
  simp only [foldHeader, headerSum, BitVec.add_assoc]
  rfl

/-- The sequencer that the pre-dummy action starts from (R168). -/
theorem comparedSeq_eq (s : State) :
    comparedSeq s =
      { s.seq with status := comparedStatus s (foldHeader s.packet) (rxWord s.shifter) } := by
  unfold comparedSeq comparedStatus
  simp only [Bool.and_eq_true, Bool.not_eq_true', sumsAgree, beq_eq_false_iff_ne, summedPacket]
  split <;> rfl

/-- Settles O40: `ChecksumDone` on the completed word. -/
theorem checksumEdgeComparesAndArmsTheDummy : Obligations.ChecksumEdgeComparesAndArmsTheDummy := by
  intro d s hr hd h
  dsimp only
  rw [exec_onEdge_lastBit d hr hd h, transferDone, checksumDone_eq, statusWordOf_eq, checksumSeq, comparedSeq_eq,
    summedPacket, foldHeader_eq]
  rfl

/-! ## Dummy -/

/-- The staging gate as the statements write it (R170). -/
theorem settleStaged_eq (cfg : Config) (p : Packet) (f : Fifo) :
    settleStaged cfg p f =
      if cfg.stageOnChecksum = true then
        { f with
          committed := if p.computedChecksum = p.receivedChecksum then f.committed ++ f.staged else f.committed
          staged := [] }
      else f := by
  obtain ⟨off, e⟩ | ⟨on, agree, e⟩ | ⟨on, differ, e⟩ := settleStaged_cases cfg p f <;> rw [e]
  · simp [off]
  · simp [on, beq_iff_eq.1 agree]
  · simp [on, beq_eq_false_iff_ne.1 differ]

/-- Settles O41: `DummyDone` without a cancellation reset. -/
theorem dummyEdgeCompletesThePacket : Obligations.DummyEdgeCompletesThePacket := by
  intro d s hr hd h hc
  rw [exec_onEdge_lastBit d hr hd h, ← settleStaged_eq s.config s.packet s.fifo]
  obtain ⟨_, e⟩ | ⟨hb, _⟩ := dummyDone_cases (transferComplete .dummy d s)
  · rw [transferDone, e]
    rfl
  · exact absurd ((classify_eq_break _).1 hb) hc

end Sys2Proof.Machine
end

section
/-! The two sums of a well-formed frame (spec/42_packet_fsm.md R171, R172): what the engine has summed when the checksum starts,
for each way a command takes its payload, and what the checksum and the Dummy make of it. -/

namespace Sys2Proof.Machine

/-! ## The last payload byte of a PRINT -/

/-- The payload byte of a PRINT that brings the index to the length: Checksum follows (42_packet_fsm.md R165). -/
theorem sendByte_print_last (b : Byte) {s : State} (h : QuietStart .payload .byte s)
    (hc : classify s.packet.command = .print) (last : s.packet.dataIndex + 1#16 = s.packet.dataLength) :
    sendByte b s = (0x00#8, armTransfer .checksum .wordLE 0#16 (printTaken s b)) := by
  have low : (printTaken s b).shifter.sout = false := h.quiet.2
  have taken := payloadTaken_print (h := { mode := .byte, mask := 0#16, rx := zext16 b, tx := 0#16, sout := false }) hc
    (loByte_zext16 b)
  rw [sendByte_quiet b h.synced h.quiet (by rw [h.shifter]; rfl) (by rw [h.shifter]) (by simp [h.pstate]),
    transition_payload (by exact h.pstate), h.shifter]
  refine congrArg (Prod.mk _) ((if_pos (by exact last)).trans ?_)
  exact (congrArg (armTransfer .checksum .wordLE 0#16) taken).trans (armTransfer_withShifter _ _ low rfl)

theorem byteSum_cons (b : Byte) (bs : List Byte) : byteSum (b :: bs) = zext16 b + byteSum bs := by
  simp [byteSum, zext16]

/-- Taking payload bytes of a PRINT adds them to the sum and counts them (R165). -/
theorem foldl_printTaken_packet (bytes : List Byte) (s : State) :
    (bytes.foldl printTaken s).packet = { s.packet with
      computedChecksum := s.packet.computedChecksum + byteSum bytes
      dataIndex := s.packet.dataIndex + BitVec.ofNat 16 bytes.length } := by
  induction bytes generalizing s with
  | nil => simp [byteSum]
  | cons b bs ih =>
    rw [List.foldl_cons, ih, byteSum_cons, List.length_cons, Nat.add_comm, BitVec.ofNat_add, ← BitVec.add_assoc,
      ← BitVec.add_assoc]
    rfl

theorem QuietStart.foldl_printTaken {s : State} (h : QuietStart .payload .byte s) (bytes : List Byte) :
    QuietStart .payload .byte (bytes.foldl printTaken s) := by
  induction bytes generalizing s with
  | nil => exact h
  | cons b bs ih => exact ih ⟨h.synced, h.pstate, h.shifter⟩

/-- The payload of a PRINT from its first byte to its last, which brings the index to the length (R165). -/
theorem sendBytes_print_whole {bytes : List Byte} {s : State} (h : QuietStart .payload .byte s)
    (hc : classify s.packet.command = .print) (nonempty : bytes ≠ []) (fits : bytes.length < 65536)
    (hl : s.packet.dataLength = s.packet.dataIndex + BitVec.ofNat 16 bytes.length) :
    (sendBytes bytes s).2 = armTransfer .checksum .wordLE 0#16 (bytes.foldl printTaken s) := by
  obtain ⟨bs, b, rfl⟩ := (List.eq_nil_or_concat' bytes).resolve_left nonempty
  rw [List.length_append, List.length_singleton] at fits hl
  have more : ∀ k < bs.length, s.packet.dataIndex + BitVec.ofNat 16 (k + 1) ≠ s.packet.dataLength := by
    intro k hk
    rw [hl]
    bv_omega
  have packet := foldl_printTaken_packet bs s
  have last := sendByte_print_last b (h.foldl_printTaken bs) (by rw [packet]; exact hc)
    (by rw [packet, hl, BitVec.ofNat_add, ← BitVec.add_assoc])
  rw [sendBytes_append, sendBytes_print bs h hc more, List.foldl_append]
  simp only [sendBytes, last]
  rfl

/-! ## Up to the checksum -/

/-- The engine stands before the checksum of a packet: the header of the frame is in its registers and the payload summed
(R161, R162, R165). -/
structure PayloadSummed (c : Byte) (f : Frame) (s : State) : Prop where
  start : QuietStart .checksum .wordLE s
  command : s.packet.command = c
  compression : s.packet.compression = f.compression
  length : s.packet.dataLength = frameLength f
  sum : s.packet.computedChecksum = byteSum f.payload

/-- The bytes of a frame in front of its checksum (30_encoding.md R100). -/
def headAndPayload (c : Byte) (f : Frame) : List Byte :=
  [0x88#8, 0x33#8, c, f.compression, loByte (frameLength f), hiByte (frameLength f)] ++ f.payload

/-- A DATA of any length is summed whole, stored or dropped (R165). -/
theorem payloadSummed_data {f : Frame} {s : State} (hw : f.wf = true) (h : AwaitingPreamble s) :
    PayloadSummed 0x04#8 f (sendBytes (headAndPayload 0x04#8 f) s).2 := by
  rw [headAndPayload, sendBytes_dataUpToChecksum hw h]
  exact ⟨quietStart_armTransfer _ _ rfl rfl, rfl, rfl, rfl, BitVec.zero_add _⟩

/-- A PRINT of at most four bytes is taken whole (R162). -/
theorem payloadSummed_print {f : Frame} {s : State} (h : AwaitingPreamble s) (nonempty : 1 ≤ f.payload.length)
    (few : f.payload.length ≤ 4) : PayloadSummed 0x02#8 f (sendBytes (headAndPayload 0x02#8 f) s).2 := by
  have clamped : clampPrint (frameLength f) = frameLength f := if_pos (by
    rw [frameLength]
    bv_omega)
  have start : QuietStart .payload .byte (printStart f.compression (frameLength f) s) := ⟨rfl, rfl, rfl⟩
  have taken := sendBytes_print_whole start rfl (List.ne_nil_of_length_pos nonempty) (by omega) (BitVec.zero_add _).symm
  obtain ⟨synced, _, shifter⟩ := start.foldl_printTaken f.payload
  rw [headAndPayload, sendBytes_append, sendBytes_printHeader f h, clamped]
  dsimp only
  rw [taken]
  refine ⟨quietStart_armTransfer _ _ synced (by rw [shifter]), ?_, ?_, ?_, ?_⟩ <;>
    rw [armTransfer_packet, foldl_printTaken_packet]
  · rfl
  · rfl
  · rfl
  · exact BitVec.zero_add _

/-- A command without payload passes from the length to the checksum (R162). -/
theorem payloadSummed_other {c : Byte} {f : Frame} {s : State} (h : AwaitingPreamble s) (data : c ≠ 0x04#8)
    (print : c ≠ 0x02#8) (hp : f.payload = []) : PayloadSummed c f (sendBytes (headAndPayload c f) s).2 := by
  rw [headAndPayload, hp, List.append_nil, sendBytes_header _ _ _ _ h,
    header2Done_other (by exact mt (classify_eq_data _).1 data) (by exact mt (classify_eq_print _).1 print)]
  exact ⟨quietStart_armTransfer _ _ rfl rfl, rfl, rfl, rxWord_wordLE _ _ _ _, by rw [hp]; rfl⟩

/-! ## At the checksum and after it -/

/-- The sum R103 defines is that of the payload with the header folded in (R168, R171). -/
theorem PayloadSummed.foldHeader {c : Byte} {f : Frame} {s : State} (h : PayloadSummed c f s) :
    foldHeader s.packet = frameChecksum c f := by
  rw [foldHeader_eq, h.command, h.compression, h.length, h.sum, BitVec.add_comm]
  rfl

/-- The checksum field of a frame has been sent (R168). -/
theorem sendBytes_checksum (w : Half) {s : State} (h : QuietStart .checksum .wordLE s) :
    (sendBytes [loByte w, hiByte w] s).2 = settle (checksumDone (checksumReceived w s)) := by
  rw [sendBytes_transfer _ _ h.synced h.quiet.lineReady (by rw [h.shifter]; rfl) (by rw [h.shifter]),
    transition_checksum (by exact h.pstate), h.shifter]
  rfl

theorem settle_packet (s : State) : (settle s).packet = s.packet := by
  obtain ⟨o, e⟩ := settle_eq s
  rw [e]
  rfl

theorem checksumDone_packet (w : Half) (s : State) :
    (checksumDone (checksumReceived w s)).packet = { s.packet with
      pstate := .dummy, receivedChecksum := w, computedChecksum := foldHeader s.packet } := by
  rw [checksumDone_eq, armTransfer_packet, State.withSeq_packet, State.withPacket_packet, summedPacket_checksumReceived]

/-- The end of a packet leaves equal sums equal: it keeps both, or a BREAK zeroes both (R170, 70_reset_and_hazards.md R272). -/
theorem dummyDone_sums {s : State} (h : s.packet.computedChecksum = s.packet.receivedChecksum) :
    (dummyDone s).packet.computedChecksum = (dummyDone s).packet.receivedChecksum := by
  obtain ⟨_, e⟩ | ⟨_, e⟩ := dummyDone_cases s <;> rw [e]
  · exact h
  · rfl

/-! ## The obligation -/

theorem frameBytes_eq_headAndPayload (c : Byte) (f : Frame) :
    frameBytes c f = headAndPayload c f ++ [loByte f.checksum, hiByte f.checksum, hiByte f.dummy, loByte f.dummy] := rfl

/-- The bytes up to the checksum are the frame without its Dummy (30_encoding.md R100). -/
theorem take_frameBytes (c : Byte) (f : Frame) :
    (frameBytes c f).take (8 + f.payload.length) = headAndPayload c f ++ [loByte f.checksum, hiByte f.checksum] := by
  have split : frameBytes c f =
      (headAndPayload c f ++ [loByte f.checksum, hiByte f.checksum]) ++ [hiByte f.dummy, loByte f.dummy] := by
    rw [frameBytes_eq_headAndPayload, List.append_assoc]
    rfl
  rw [split]
  exact List.take_left' (by simp [headAndPayload]; omega)

/-- The instruction of a command byte is the sending of its frame (log 1). -/
theorem exec_commandInstr (c : Byte) (f : Frame) (s : State) :
    exec (commandInstr c f) s = transmit (frameBytes c f) s := by
  cases h : classify c with
  | init => rw [(classify_eq_init c).1 h]; rfl
  | print => rw [(classify_eq_print c).1 h]; rfl
  | data => rw [(classify_eq_data c).1 h]; rfl
  | break_ => rw [(classify_eq_break c).1 h]; rfl
  | inquiry => rw [(classify_eq_inquiry c).1 h]; rfl
  | unknown => rw [commandInstr, h]; rfl

/-- Settles O52: the payload is summed up to the checksum, whichever way the command takes it; ChecksumDone folds in the header,
and DummyDone keeps the equality. -/
theorem wellFormedFramesHaveEqualSums : Obligations.WellFormedFramesHaveEqualSums := by
  intro c f s hw ⟨hr, await, _⟩ correct whole
  have summed : PayloadSummed c f (sendBytes (headAndPayload c f) s).2 := by
    obtain rfl | ⟨rfl, nonempty, few⟩ | ⟨data, print, empty⟩ := whole
    · exact payloadSummed_data hw await
    · exact payloadSummed_print await nonempty few
    · exact payloadSummed_other await data print empty
  have compared := checksumDone_packet f.checksum (sendBytes (headAndPayload c f) s).2
  rw [summed.foldHeader, ← correct] at compared
  dsimp only
  rw [take_frameBytes, sendBytes_append, sendBytes_checksum _ summed.start, settle_packet, compared]
  refine ⟨rfl, summed.command, rfl, rfl, fun t ht => ?_⟩
  rw [exec_commandInstr, transmit_eq hr (controlPoint_of_awaitingPreamble await), frameBytes_eq_headAndPayload,
    sendBytes_append, sendBytes_checksum_dummy _ _ _ summed.start] at ht
  cases ht
  exact dummyDone_sums (by rw [compared])

end Sys2Proof.Machine
end

section
/-! The command rules as functions of the sequencer (spec/43_commands.md R180–R187): the countdown step by cases, what each
command byte makes the three dispatchers do, and the end of a BREAK. -/

namespace Sys2Proof.Machine

/-! ## The countdown step -/

/-- Writing a status bit is a mask on the status byte (10_state.md R45): 1 BUSY, 2 BUFFER_FULL, 3 UNPROCESSED_DATA. -/
theorem putBit_busy_false (q : Sequencer) :
    q.putBit busyBit false = { q with status := q.status &&& 0xFD#8 } := rfl

theorem putBit_bufferFull_false (q : Sequencer) :
    q.putBit bufferFullBit false = { q with status := q.status &&& 0xFB#8 } := rfl

theorem putBit_bufferFull_true (q : Sequencer) :
    q.putBit bufferFullBit true = { q with status := q.status ||| 0x04#8 } := rfl

theorem putBit_unprocessedData_true (q : Sequencer) :
    q.putBit unprocessedDataBit true = { q with status := q.status ||| 0x08#8 } := rfl

/-- BUSY and BUFFER_FULL are set together (43_commands.md R185). -/
theorem putBit_busy_bufferFull_true (q : Sequencer) :
    (q.putBit busyBit true).putBit bufferFullBit true = { q with status := q.status ||| 0x06#8 } :=
  congrArg (fun st => { q with status := st }) (BitVec.or_assoc q.status 0x02#8 0x04#8)

/-- Counting down one of the counters reaches 0 from 1 only. -/
theorem sub_one_eq_zero_iff (b : Byte) : b - 1#8 = 0#8 ↔ b = 1#8 := sub_eq_zero

/-- Settles O44: the branches of `inquiryStep`, by the counter that moves and whether it reaches 0. -/
theorem inquiryStepCountsOneCounterDown : Obligations.InquiryStepCountsOneCounterDown := by
  intro q
  unfold inquiryStep
  simp only [putBit_unprocessedData_false, putBit_busy_bufferFull_true, putBit_busy_false, sub_one_eq_zero_iff]
  refine ⟨fun hu => ?_, fun hu hb => ?_, fun hu hb => ?_, fun hu hb => ?_, fun hu hb => ?_, fun hu hb => ?_⟩
  · rw [if_neg (by bv_omega), if_neg (by bv_omega)]
  · simp [hu, hb]
  · simp [hu, hb]
  · rw [if_pos hu, if_neg (by bv_omega), if_neg (by bv_omega)]
  · simp [hu, hb]
  · simp [hu, hb]

/-! ## The dispatch of the command actions -/

/-- The post-dummy action of DATA (43_commands.md R182). -/
theorem postData_eq (len : Half) (q : Sequencer) :
    postData len q = { q with
      dataPacketsRemaining := if q.dataPacketsRemaining = 0#8 then 0#8 else q.dataPacketsRemaining - 1#8
      status :=
        (if len = 0#16 then (if q.dataPacketsRemaining = 1#8 then q.status ||| 0x04#8 else q.status) &&& 0xF7#8
         else (if q.dataPacketsRemaining = 1#8 then q.status ||| 0x04#8 else q.status) ||| 0x08#8) } := by
  have cleared : ∀ st : Byte, (st ||| 0x08#8) &&& 0xF7#8 = st &&& 0xF7#8 := by decide
  unfold postData
  simp only [putBit_unprocessedData_false, putBit_unprocessedData_true, putBit_bufferFull_true, sub_one_eq_zero_iff]
  by_cases h0 : q.dataPacketsRemaining = 0#8
  · by_cases hl : len = 0#16 <;> simp [h0, hl, cleared]
  · by_cases h1 : q.dataPacketsRemaining = 1#8 <;> by_cases hl : len = 0#16 <;> simp [h0, h1, hl, cleared]

/-- The post-dummy action of INQUIRY (R184). -/
theorem postInquiry_eq (q : Sequencer) :
    postInquiry q = { q with
      status := if q.untransmittedRemaining = 0#8 ∧ q.busyRemaining = 0#8 then q.status &&& 0xFB#8 else q.status } := by
  unfold postInquiry
  rw [putBit_bufferFull_false]
  split <;> rfl

theorem not_known_iff (c : Byte) :
    knownCommandBytes.contains c = false ↔
      c ≠ 0x01#8 ∧ c ≠ 0x02#8 ∧ c ≠ 0x04#8 ∧ c ≠ 0x08#8 ∧ c ≠ 0x0F#8 := by
  simp [knownCommandBytes]

/-- An unknown command does nothing (R187). -/
theorem unknown_does_nothing {c : Byte} (h : classify c = .unknown) (cfg : Config) (len : Half) (q : Sequencer)
    (l : Latches) : preDummy cfg c q = q ∧ postDummy c len q = q ∧ raiseFlag c len l = l := by
  simp only [preDummy, postDummy, raiseFlag, h, and_self]

/-- Settles O59: the byte is classified, and each action is its rule's. -/
theorem commandActionsAreDispatchedByTheByte : Obligations.CommandActionsAreDispatchedByTheByte := by
  intro cfg len q l
  refine ⟨⟨rfl, rfl, rfl⟩, ⟨rfl, rfl, rfl⟩, ⟨rfl, postData_eq len q, rfl⟩, ⟨rfl, rfl, rfl⟩, ⟨rfl, postInquiry_eq q, rfl⟩,
    fun c h1 h2 h4 h8 hF => ?_⟩
  exact unknown_does_nothing (classify_unknown ((not_known_iff c).2 ⟨h1, h2, h4, h8, hF⟩)) cfg len q l

/-! ## The end of a BREAK -/

/-- What the end of a BREAK's Dummy makes of the state (42_packet_fsm.md R170, 70_reset_and_hazards.md R272). -/
theorem dummyDone_break {s : State} (hc : s.packet.command = 0x08#8) :
    dummyDone s = { s with
      shifter := .zero, sync := .zero, packet := .zero, seq := .zero, timer := 0#32
      fifo := { s.fifo with committed := [], staged := [] }, resetReport := true
      latches := { s.latches with breakReceived := true, packetCompleted := true } } := by
  have raised : raiseFlag s.packet.command s.packet.dataLength s.latches = { s.latches with breakReceived := true } := by
    rw [hc]
    rfl
  obtain ⟨other, _⟩ | ⟨_, e⟩ := dummyDone_cases s
  · exact absurd ((classify_eq_break _).2 hc) other
  · rw [e, packetEnded, cancelReset, raised]
    simp only [ringClear_eq, settleStaged_cap]
    rfl

/-- Settles O42: `DummyDone` ends in the cancellation reset. -/
theorem breakEndsInCancelReset : Obligations.BreakEndsInCancelReset := by
  intro d s hr hd h hc
  rw [exec_onEdge_lastBit d hr hd h, transferDone, dummyDone_break (by exact hc)]
  rfl

end Sys2Proof.Machine
end

section
/-! Whole frames (spec/43_commands.md R180–R187; 42_packet_fsm.md R160–R170): where the bytes before the checksum leave the
engine, for each way a command takes its payload, and what the checksum and the Dummy make of it. -/

namespace Sys2Proof.Machine

/-! ## Before the checksum -/

/-- The engine before the first bit of the checksum of a packet whose header is `c`, `comp`, `len`, with `idx` payload bytes
taken that sum up to `sum` (42_packet_fsm.md R161, R162, R165). -/
def checksumStart (c comp : Byte) (len idx sum : Half) (s : State) : State :=
  { s with
    sync := { window := 0#16, synced := true }
    shifter := { mode := .wordLE, mask := 0x8000#16, rx := 0#16, tx := 0#16, sout := false }
    packet := { s.packet with
      pstate := .checksum, command := c, compression := comp, dataLength := len, dataIndex := idx, computedChecksum := sum }
    timer := s.config.timeoutMs }

theorem quietStart_checksumStart (c comp : Byte) (len idx sum : Half) (s : State) :
    QuietStart .checksum .wordLE (checksumStart c comp len idx sum s) := ⟨rfl, rfl, rfl⟩

/-- The six bytes of a header whose command takes no payload (R162). -/
theorem sendBytes_otherHeader {c : Byte} (data : c ≠ 0x04#8) (print : c ≠ 0x02#8) (f : Frame) {s : State}
    (h : AwaitingPreamble s) :
    sendBytes [0x88#8, 0x33#8, c, f.compression, loByte (frameLength f), hiByte (frameLength f)] s =
      (List.replicate 6 0x00#8, checksumStart c f.compression (frameLength f) 0#16 0#16 s) := by
  rw [sendBytes_header _ _ _ _ h,
    header2Done_other (by exact mt (classify_eq_data _).1 data) (by exact mt (classify_eq_print _).1 print),
    State.withShifter_shifter, rxWord_wordLE]
  rfl

/-- The header and the payload of a DATA frame (R165). -/
theorem sendBytes_dataHeadAndPayload {f : Frame} {s : State} (hw : f.wf = true) (h : AwaitingPreamble s) :
    sendBytes (headAndPayload 0x04#8 f) s =
      (List.replicate (6 + f.payload.length) 0x00#8,
        checksumStart 0x04#8 f.compression (frameLength f) (frameLength f) (byteSum f.payload)
          { s with fifo := enqueueAll s.config.stageOnChecksum f.payload s.fifo }) := by
  calc sendBytes (headAndPayload 0x04#8 f) s
      = (List.replicate (6 + f.payload.length) 0x00#8,
          checksumStart 0x04#8 f.compression (frameLength f) (0#16 + BitVec.ofNat 16 f.payload.length)
            (0#16 + byteSum f.payload)
            { s with fifo := enqueueAll s.config.stageOnChecksum f.payload s.fifo }) := sendBytes_dataUpToChecksum hw h
    _ = _ := by
      rw [BitVec.zero_add, BitVec.zero_add]
      rfl

/-- The payload of a PRINT from its first byte to its last: the master reads zeros (R165). -/
theorem sendBytes_printPayload (b : Byte) (bs : List Byte) {s : State} (h : QuietStart .payload .byte s)
    (hc : classify s.packet.command = .print) (fits : bs.length + 1 < 65536)
    (hl : s.packet.dataLength = s.packet.dataIndex + BitVec.ofNat 16 (bs.length + 1)) :
    sendBytes (b :: bs) s =
      (List.replicate (bs.length + 1) 0x00#8, armTransfer .checksum .wordLE 0#16 ((b :: bs).foldl printTaken s)) := by
  induction bs generalizing b s with
  | nil => simp [sendBytes, sendByte_print_last b h hc hl.symm]
  | cons c cs ih =>
    rw [List.length_cons] at fits hl
    have more : s.packet.dataIndex + 1#16 ≠ s.packet.dataLength := by
      rw [hl]
      bv_omega
    have left : s.packet.dataLength = s.packet.dataIndex + 1#16 + BitVec.ofNat 16 (cs.length + 1) := by
      rw [hl]
      bv_omega
    have rest := ih c (s := printTaken s b) ⟨h.synced, h.pstate, h.shifter⟩ hc (by omega) left
    rw [sendBytes, sendByte_print b h hc more]
    simp only [rest]
    rfl

/-- The print instruction with its first bytes replaced by `stored` (10_state.md R47). -/
def PrintInstruction.overwrite (stored : List Byte) (p : PrintInstruction) : PrintInstruction :=
  { byte0 := stored.getD 0 p.byte0, byte1 := stored.getD 1 p.byte1, byte2 := stored.getD 2 p.byte2,
    byte3 := stored.getD 3 p.byte3 }

/-- At most four payload bytes of a PRINT are the first bytes of the print instruction (R165). -/
theorem foldl_printTaken_printStart {stored : List Byte} (few : stored.length ≤ 4) (comp : Byte) (len : Half) (s : State) :
    stored.foldl printTaken (printStart comp len s) = { printStart comp len s with
      packet := (stored.foldl printTaken (printStart comp len s)).packet
      printInstruction := s.printInstruction.overwrite stored } := by
  match stored, few with
  | [], _ | [_], _ | [_, _], _ | [_, _, _], _ | [_, _, _, _], _ => rfl

/-- The clamped length of a PRINT frame counts the payload bytes stored (R162). -/
theorem clampPrint_frameLength {f : Frame} (hw : f.wf = true) :
    clampPrint (frameLength f) = BitVec.ofNat 16 (f.payload.take 4).length := by
  have length := frameLength_toNat hw
  rw [List.length_take, clampPrint_eq_ite]
  split <;> bv_omega

/-- The header of a PRINT frame and the payload bytes that are stored (R162, R165). -/
theorem sendBytes_printHeadAndStored {f : Frame} {s : State} (hw : f.wf = true) (h : AwaitingPreamble s)
    (nonempty : f.payload ≠ []) :
    sendBytes ([0x88#8, 0x33#8, 0x02#8, f.compression, loByte (frameLength f), hiByte (frameLength f)] ++
        f.payload.take 4) s =
      (List.replicate (6 + (f.payload.take 4).length) 0x00#8,
        checksumStart 0x02#8 f.compression (BitVec.ofNat 16 (f.payload.take 4).length)
          (BitVec.ofNat 16 (f.payload.take 4).length) (byteSum (f.payload.take 4))
          { s with printInstruction := s.printInstruction.overwrite (f.payload.take 4) }) := by
  rw [sendBytes_append, sendBytes_printHeader f h, clampPrint_frameLength hw]
  have few : (f.payload.take 4).length ≤ 4 := List.length_take_le ..
  obtain ⟨b, bs, stored⟩ := List.exists_cons_of_ne_nil (l := f.payload.take 4) (by simpa using nonempty)
  rw [stored] at few ⊢
  have payload := sendBytes_printPayload b bs
    (s := printStart f.compression (BitVec.ofNat 16 (b :: bs).length) s) ⟨rfl, rfl, rfl⟩ rfl
    (Nat.lt_of_le_of_lt few (by decide)) (BitVec.zero_add _).symm
  have packet := foldl_printTaken_packet (b :: bs) (printStart f.compression (BitVec.ofNat 16 (b :: bs).length) s)
  rw [foldl_printTaken_printStart few, packet] at payload
  simp only [payload]
  refine Prod.ext (List.replicate_append_replicate ..) ?_
  show checksumStart 0x02#8 f.compression _ (0#16 + BitVec.ofNat 16 (b :: bs).length) (0#16 + byteSum (b :: bs))
    { s with printInstruction := s.printInstruction.overwrite (b :: bs) } = _
  rw [BitVec.zero_add, BitVec.zero_add]
  rfl

/-! ## From the checksum on -/

/-- The sequencer of which the Dummy shows the status, when a packet with header `c`, `comp`, `len` whose payload sums up to
`sum` ends with the checksum `w` (R168). -/
def shownSeq (c comp : Byte) (len sum w : Half) (s : State) : Sequencer :=
  preDummy s.config c { s.seq with status := comparedStatus s (sum + headerSum c comp len) w }

theorem checksumSeq_checksumStart (c comp : Byte) (len idx sum w : Half) (s : State) :
    checksumSeq (checksumReceived w (checksumStart c comp len idx sum s)) = shownSeq c comp len sum w s := by
  have received : rxWord (checksumReceived w (checksumStart c comp len idx sum s)).shifter = w := rxWord_wordLE w _ _ _
  rw [checksumSeq, comparedSeq_eq, foldHeader_eq, received]
  rfl

/-- A frame whose bytes before the checksum are answered with zeros: the next two are the checksum, the next two the Dummy, and
the rest is sent on (R168, R170; 30_encoding.md R104). -/
theorem transmit_frame {pre surplus : List Byte} {c0 c1 d0 d1 c comp : Byte} {len idx sum : Half} {k : Nat} {s t : State}
    (hr : Ready s) (await : AwaitingPreamble s)
    (head : sendBytes pre s = (List.replicate (6 + k) 0x00#8, checksumStart c comp len idx sum t)) :
    transmit (pre ++ c0 :: c1 :: d0 :: d1 :: surplus) s =
      .next (thenSend (8 + k) (shownSeq c comp len sum (c1 ++ c0) t).status surplus
        (dummyDone (checksumDone (checksumReceived (c1 ++ c0) (checksumStart c comp len idx sum t))))) := by
  have tail := sendBytes_checksum_dummy (c1 ++ c0) d0 d1 (quietStart_checksumStart c comp len idx sum t)
  rw [loByte_append, hiByte_append, checksumSeq_checksumStart] at tail
  have zeros : List.replicate (8 + k) 0x00#8 = List.replicate (6 + k) 0x00#8 ++ [0x00#8, 0x00#8] := by
    rw [show 8 + k = 6 + k + 2 by omega, List.replicate_add]
    rfl
  rw [transmit_eq hr (controlPoint_of_awaitingPreamble await), sendBytes_append, head,
    show c0 :: c1 :: d0 :: d1 :: surplus = [c0, c1, d0, d1] ++ surplus from rfl, sendBytes_append, tail, thenSend, zeros]
  simp only [List.append_assoc]
  rfl

/-- The payload FIFO once a packet has ended (R170). -/
def settledFifo (cfg : Config) (computed received : Half) (f : Fifo) : Fifo :=
  if cfg.stageOnChecksum = true then
    { f with committed := if computed = received then f.committed ++ f.staged else f.committed, staged := [] }
  else f

/-- Where the end of a packet that is no BREAK leaves the engine (R170). -/
theorem dummyDone_checksumStart {c : Byte} (hc : c ≠ 0x08#8) (comp : Byte) (len idx sum w : Half) {s : State}
    (await : AwaitingPreamble s) :
    dummyDone (checksumDone (checksumReceived w (checksumStart c comp len idx sum s))) =
      frameEnd c comp len idx w (sum + headerSum c comp len) (postDummy c len (shownSeq c comp len sum w s))
        { raiseFlag c len s.latches with packetCompleted := true }
        { s with fifo := settledFifo s.config (sum + headerSum c comp len) w s.fifo } := by
  obtain ⟨sync, _⟩ := await
  obtain ⟨_, e⟩ | ⟨hb, _⟩ := dummyDone_cases (checksumDone (checksumReceived w (checksumStart c comp len idx sum s)))
  · rw [e, packetEnded, settleStaged_eq, checksumDone_eq, checksumSeq_checksumStart, summedPacket_checksumReceived,
      foldHeader_eq, frameEnd, sync]
    rfl
  · exact absurd ((classify_eq_break _).1 hb) hc

end Sys2Proof.Machine
end

section
/-! What a frame of each command does (spec/43_commands.md R180–R187): where its bytes before the checksum leave the engine, then
the actions of its command byte. -/

namespace Sys2Proof.Machine

/-! ## Commands without payload -/

/-- Without staged bytes the staging gate has nothing to decide (42_packet_fsm.md R170). -/
theorem settledFifo_of_nothing_staged {f : Fifo} (h : f.staged = []) (cfg : Config) (computed received : Half) :
    settledFifo cfg computed received f = f := by
  obtain ⟨cap, committed, staged⟩ := f
  obtain rfl : staged = [] := h
  simp [settledFifo]

section
variable {c c0 c1 d0 d1 : Byte} {surplus : List Byte} {f : Frame} {s : State}

/-- A frame whose command takes no payload: the four bytes after LENGTH are the checksum and the Dummy (R162, R168, R170). -/
theorem transmit_otherFrame (data : c ≠ 0x04#8) (print : c ≠ 0x02#8) (h : ReadyForFrame s)
    (hb : f.payload ++ frameTail f = c0 :: c1 :: d0 :: d1 :: surplus) :
    transmit (frameBytes c f) s =
      .next (thenSend 8 (shownSeq c f.compression (frameLength f) 0#16 (c1 ++ c0) s).status surplus
        (dummyDone (checksumDone (checksumReceived (c1 ++ c0)
          (checksumStart c f.compression (frameLength f) 0#16 0#16 s))))) := by
  obtain ⟨ready, await, _⟩ := h
  rw [frameBytes_eq_tail, List.append_assoc, hb]
  exact transmit_frame (k := 0) ready await (sendBytes_otherHeader data print f await)

/-- A frame whose command takes no payload and is no BREAK ends with the actions of its command byte (R168, R170). -/
theorem transmit_otherFrame_end (data : c ≠ 0x04#8) (print : c ≠ 0x02#8) (notBreak : c ≠ 0x08#8) (h : ReadyForFrame s)
    (hb : f.payload ++ frameTail f = c0 :: c1 :: d0 :: d1 :: surplus) :
    let sum := headerSum c f.compression (frameLength f)
    let q := preDummy s.config c { s.seq with status := comparedStatus s sum (c1 ++ c0) }
    transmit (frameBytes c f) s =
      .next (thenSend 8 q.status surplus
        (frameEnd c f.compression (frameLength f) 0#16 (c1 ++ c0) sum (postDummy c (frameLength f) q)
          { raiseFlag c (frameLength f) s.latches with packetCompleted := true } s)) := by
  obtain ⟨_, await, staged⟩ := id h
  rw [transmit_otherFrame data print h hb, dummyDone_checksumStart notBreak _ _ _ _ _ await,
    settledFifo_of_nothing_staged staged, shownSeq, BitVec.zero_add]

end

/-- Settles O45: a frame without payload, with the actions of INIT. -/
theorem initFrameLoadsTheCounters : Obligations.InitFrameLoadsTheCounters := by
  intro f s c0 c1 d0 d1 surplus _ h hb
  exact transmit_otherFrame_end (c := 0x01#8) (by decide) (by decide) (by decide) h hb

/-- Settles O50: a frame without payload, with the actions of INQUIRY. -/
theorem inquiryFrameRunsTheCountdown : Obligations.InquiryFrameRunsTheCountdown := by
  intro f s c0 c1 d0 d1 surplus _ h hb
  dsimp only
  rw [← postInquiry_eq]
  exact transmit_otherFrame_end (c := 0x0F#8) (by decide) (by decide) (by decide) h hb

/-- Settles O51: a frame without payload, with no action at all. -/
theorem unknownFrameOnlyCompletes : Obligations.UnknownFrameOnlyCompletes := by
  intro c f s c0 c1 d0 d1 surplus hw h hb
  obtain ⟨_, unknown⟩ : f.wf = true ∧ knownCommandBytes.contains c = false := by simpa [Instr.wf] using hw
  obtain ⟨_, print, data, notBreak, _⟩ := (not_known_iff c).1 unknown
  have frame := transmit_otherFrame_end data print notBreak h hb
  obtain ⟨pre, post, flag⟩ := unknown_does_nothing (classify_unknown unknown) s.config (frameLength f)
    { s.seq with status := comparedStatus s (headerSum c f.compression (frameLength f)) (c1 ++ c0) } s.latches
  dsimp only at frame ⊢
  rw [pre, post, flag] at frame
  exact frame

/-- Settles O49: a frame without payload, whose end is the cancellation reset. -/
theorem breakFrameCancelsEverything : Obligations.BreakFrameCancelsEverything := by
  intro f s c0 c1 d0 d1 surplus _ h hb
  refine (transmit_otherFrame (c := 0x08#8) (by decide) (by decide) h hb).trans ?_
  rw [dummyDone_break (by rfl)]
  rfl

/-! ## PRINT -/

/-- Settles O46: the stored bytes, then the checksum and the Dummy among the bytes after them, with the actions of PRINT. -/
theorem printFrameStoresTheInstruction : Obligations.PrintFrameStoresTheInstruction := by
  intro f s c0 c1 d0 d1 surplus hw ⟨ready, await, staged⟩ nonempty hb
  have bytes : frameBytes 0x02#8 f =
      ([0x88#8, 0x33#8, 0x02#8, f.compression, loByte (frameLength f), hiByte (frameLength f)] ++ f.payload.take 4) ++
        c0 :: c1 :: d0 :: d1 :: surplus := by
    rw [← hb, List.append_assoc, ← List.append_assoc (f.payload.take 4), List.take_append_drop]
    rfl
  have frame := transmit_frame (c0 := c0) (c1 := c1) (d0 := d0) (d1 := d1) (surplus := surplus) ready await
    (sendBytes_printHeadAndStored hw await nonempty)
  rw [← bytes, dummyDone_checksumStart (by decide) _ _ _ _ _ (by exact await),
    settledFifo_of_nothing_staged (by exact staged)] at frame
  exact frame

/-! ## DATA -/

/-- The bytes of the payload for which there is room are committed, but those staged for a packet whose sums differ are lost
(20_memory.md R74, R75, R76, 42_packet_fsm.md R170). -/
theorem settledFifo_enqueueAll {f : Fifo} (h : f.staged = []) (cfg : Config) (computed received : Half) (bytes : List Byte) :
    settledFifo cfg computed received (enqueueAll cfg.stageOnChecksum bytes f) = { f with
      committed := if cfg.stageOnChecksum = true ∧ computed ≠ received then f.committed
        else f.committed ++ bytes.take (f.cap - f.committed.length) } := by
  rw [enqueueAll_eq, settledFifo]
  cases cfg.stageOnChecksum <;> by_cases agree : computed = received <;> simp [agree, h]

/-- The LENGTH field of a frame is 0 only for the empty payload. -/
theorem frameLength_eq_zero_iff {f : Frame} (hw : f.wf = true) : frameLength f = 0#16 ↔ f.payload = [] := by
  rw [← List.length_eq_zero_iff, ← frameLength_toNat hw, ← BitVec.toNat_inj]
  rfl

/-- The latch DATA raises is by length (43_commands.md R182). -/
theorem raiseFlag_data {f : Frame} (hw : f.wf = true) (l : Latches) :
    raiseFlag 0x04#8 (frameLength f) l = { l with
      dataPacketReceived := l.dataPacketReceived || !f.payload.isEmpty
      dataEndReceived := l.dataEndReceived || f.payload.isEmpty } := by
  show (if frameLength f = 0#16 then _ else _) = _
  simp only [frameLength_eq_zero_iff hw]
  by_cases empty : f.payload = [] <;> simp [empty]

/-- Settles O48: the whole payload, queued as far as there is room, with the actions of DATA. -/
theorem dataFrameQueuesThePayload : Obligations.DataFrameQueuesThePayload := by
  intro f s hw ⟨ready, await, staged⟩
  have frame := transmit_frame (c0 := loByte f.checksum) (c1 := hiByte f.checksum) (d0 := hiByte f.dummy)
    (d1 := loByte f.dummy) (surplus := []) ready await (sendBytes_dataHeadAndPayload hw await)
  have post := fun q => (show postDummy 0x04#8 (frameLength f) q = _ from postData_eq _ q)
  simp only [frameLength_eq_zero_iff hw] at post
  rw [hiByte_append_loByte, dummyDone_checksumStart (by decide) _ _ _ _ _ (by exact await), raiseFlag_data hw, post] at frame
  dsimp only at frame
  rw [settledFifo_enqueueAll staged] at frame
  exact frame

end Sys2Proof.Machine
end

section
/-! Runs of INQUIRY frames (spec/43_commands.md R184, R185, R188): what the INQUIRY packet does to the counters and shows in its
Dummy, and how long BUSY is reported. -/

namespace Sys2Proof.Machine

/-! ## The counters while BUSY is reported -/

/-- Nothing is untransmitted, `busy_remaining` is `n`, and BUSY is reported unless `n` is 0 (R185). -/
structure BusyFor (n : Nat) (q : Sequencer) : Prop where
  untransmitted : q.untransmittedRemaining = 0#8
  busy : q.busyRemaining.toNat = n
  reported : q.status.getLsbD 1 = decide (n ≠ 0)

/-- The step that takes `untransmitted_remaining` to 0 starts the report (R185). -/
theorem busyFor_inquiryStep_of_last_untransmitted {q : Sequencer} (hu : q.untransmittedRemaining = 1#8)
    (hb : q.busyRemaining ≠ 0#8) : BusyFor q.busyRemaining.toNat (inquiryStep q) := by
  obtain ⟨_, start, _⟩ := inquiryStepCountsOneCounterDown q
  have nonzero : q.busyRemaining.toNat ≠ 0 := by bv_omega
  rw [start hu hb]
  exact ⟨rfl, rfl, by simp [nonzero]⟩

/-- A further step leaves BUSY reported one time less (R185). -/
theorem BusyFor.inquiryStep {n : Nat} {q : Sequencer} (h : BusyFor (n + 1) q) : BusyFor n (inquiryStep q) := by
  obtain ⟨hu, hb, reported⟩ := h
  obtain ⟨_, _, _, more, last, _⟩ := inquiryStepCountsOneCounterDown q
  by_cases one : q.busyRemaining = 1#8
  · obtain rfl : n = 0 := by simpa [one] using hb
    rw [last hu one]
    exact ⟨hu, rfl, by simp⟩
  · have several : 1#8 < q.busyRemaining := by bv_omega
    have left : n ≠ 0 := by bv_omega
    rw [more hu several]
    exact ⟨hu, by dsimp only; bv_omega, by simp [reported, left]⟩

/-- INQUIRY's post-dummy action writes BUFFER_FULL only (R184). -/
theorem BusyFor.postInquiry {n : Nat} {q : Sequencer} (h : BusyFor n q) : BusyFor n (postInquiry q) := by
  obtain ⟨hu, hb, reported⟩ := h
  rw [postInquiry_eq]
  refine ⟨hu, hb, reported ▸ ?_⟩
  dsimp only
  split <;> simp

/-! ## One INQUIRY packet -/

/-- The input that presents the INQUIRY packet of R123: no payload, the correct checksum. -/
def inquiryInput : Input := encode (.cmdInquiry (pkt 0x0F#8 0#8 []))

theorem comparedStatus_of_eq {computed received : Half} (h : computed = received) (s : State) :
    comparedStatus s computed received = s.seq.status := if_neg fun differ => differ.2 h

/-- The INQUIRY packet: its Dummy shows the status the countdown step leaves, and the packet ends in
the sequencer INQUIRY's post-dummy action leaves (R184). -/
theorem transmit_inquiryPacket {s : State} (h : ReadyForFrame s) :
    transmit (frameBytes 0x0F#8 (pkt 0x0F#8 0#8 [])) s =
      .next (thenSend 8 (inquiryStep s.seq).status []
        (frameEnd 0x0F#8 0#8 0#16 0#16 0x000F#16 0x000F#16 (postInquiry (inquiryStep s.seq))
          { s.latches with inquiryReceived := true, packetCompleted := true } s)) := by
  have frame := transmit_otherFrame_end (c := 0x0F#8) (f := pkt 0x0F#8 0#8 []) (by decide) (by decide) (by decide) h rfl
  dsimp only at frame
  rw [comparedStatus_of_eq (by decide)] at frame
  exact frame

/-- The INQUIRY packet in front of the schedule is served in one step, and the engine is ready for the next frame (R184). -/
theorem step_inquiryInput {rest : List Input} {s : State} (h : ReadyForFrame s) (hi : s.inputs = inquiryInput :: rest) :
    ∃ t back, step s = .next t ∧ ReadyForFrame t ∧ t.inputs = rest ∧ t.seq = postInquiry (inquiryStep s.seq) ∧
      t.result = .back back ∧ back.getLastD 0#8 = (inquiryStep s.seq).status := by
  obtain ⟨ready, await, staged⟩ := id h
  obtain ⟨sync, _⟩ := id await
  have decoded : decode inquiryInput = .ok (.cmdInquiry (pkt 0x0F#8 0#8 [])) := decode_encode_commandRow rfl (by decide)
  have served := (step_cons_ok (controlPoint_of_awaitingPreamble await) hi decoded).trans (transmit_inquiryPacket (by exact h))
  exact ⟨_, _, served, ⟨ready, ⟨sync, rfl, rfl, rfl, rfl⟩, staged⟩, rfl, rfl, rfl, by simp [sendBytes]⟩

/-! ## Runs of INQUIRY packets -/

/-- When the next countdown step leaves BUSY to be reported `m + k` times, the last of `k + 1` INQUIRYs reports it unless `m` is
0 (R188). -/
theorem run_inquiryInputs {k m : Nat} {s : State} (h : ReadyForFrame s)
    (hi : s.inputs = List.replicate (k + 1) inquiryInput) (next : BusyFor (m + k) (inquiryStep s.seq)) :
    ∃ t back, Host.Core.run Sys2Proof.core (k + 1) s = .next t ∧ t.result = .back back ∧
      (back.getLastD 0#8).getLsbD 1 = decide (m ≠ 0) := by
  induction k generalizing s with
  | zero =>
    obtain ⟨t, back, served, _, _, _, result, shown⟩ := step_inquiryInput h hi
    exact ⟨t, back, run_succ served, result, by rw [shown]; exact next.reported⟩
  | succ k ih =>
    obtain ⟨t, _, served, ready, inputs, seq, _, _⟩ := step_inquiryInput h hi
    rw [run_succ served]
    exact ih ready inputs (by rw [seq]; exact next.postInquiry.inquiryStep)

/-- Settles O58: the first INQUIRY starts the report, and each further one takes one off `busy_remaining`. -/
theorem busyIsReportedForBusyCountInquiries : Obligations.BusyIsReportedForBusyCountInquiries := by
  intro s k h hu hb hk
  have start := busyFor_inquiryStep_of_last_untransmitted hu hb
  have less : (k < s.seq.busyRemaining.toNat) = (s.seq.busyRemaining.toNat - k ≠ 0) := by rw [Nat.sub_ne_zero_iff_lt]
  simp only [less]
  exact run_inquiryInputs (s := { s with inputs := List.replicate (k + 1) inquiryInput }) h rfl
    (by rw [Nat.sub_add_cancel hk]; exact start)

end Sys2Proof.Machine
end

section
/-! The foreground port (spec/44_host_interface.md R201–R234): the code and the answer of its operations, by their guard once the
engine is ready. -/

namespace Sys2Proof.Machine

/-! ## Transaction codes -/

/-- What a code names is read off the decoder at the requests that carry it (30_encoding.md R120). -/
theorem hasCode_of_decodeRequest {c : Byte} {mk : Request → Instr}
    (h : ∀ r : Request, decodeRequest { r with code := c } = .ok (mk r)) : HasCode c mk := by
  rintro r rfl
  exact h r

/-! ## RESET and TICK -/

/-- HostReset is `PostInit` of the state's own capacity, but for `initialised` and the model's own fields (R271; logs 2, 6). -/
theorem hostReset_eq_postInit (s : State) :
    hostReset s = { State.postInit s.config s.fifo.cap with
      initialised := s.initialised, inputs := s.inputs, draws := s.draws } := rfl

theorem exec_reset {s : State} (h : Ready s) : exec .reset s = .next (hostReset s) := whenReady_of_ready h _

theorem exec_tick (e : Millis) {s : State} (h : Ready s) : exec (.tick e) s = .next (tickEffect e s) :=
  whenReady_of_ready h _

/-! ## Consumes and print accessors -/

/-- The consume template once the engine is ready: the latch is returned, and only the latches are written. -/
theorem consume_of_ready {s : State} (h : Ready s) (r : Bool) (l : Latches) :
    consume r l s = .next { s with latches := l, result := .bool r } := whenReady_of_ready h _

theorem gated_of_received {α : Type} {s : State} (h : s.latches.printInstructionReceived = true) (v : α) :
    gated s v = some v := if_pos h

theorem gated_of_not_received {α : Type} {s : State} (h : s.latches.printInstructionReceived = false) (v : α) :
    gated s v = none := if_neg (ne_true_of_eq_false h)

theorem exec_piSheets {s : State} (h : Ready s) :
    exec .piSheets s = .next { s with result := .byteOrNone (gated s s.printInstruction.byte0) } := whenReady_of_ready h _

theorem exec_piLfBefore {s : State} (h : Ready s) :
    exec .piLfBefore s = .next { s with
      result := .nibbleOrNone (gated s (s.printInstruction.byte1.extractLsb' 4 4)) } := whenReady_of_ready h _

theorem exec_piLfAfter {s : State} (h : Ready s) :
    exec .piLfAfter s = .next { s with
      result := .nibbleOrNone (gated s (s.printInstruction.byte1.extractLsb' 0 4)) } := whenReady_of_ready h _

theorem exec_piPalette {s : State} (h : Ready s) :
    exec .piPalette s = .next { s with result := .byteOrNone (gated s s.printInstruction.byte2) } := whenReady_of_ready h _

theorem exec_piDensity {s : State} (h : Ready s) :
    exec .piDensity s = .next { s with result := .byteOrNone (gated s s.printInstruction.byte3) } := whenReady_of_ready h _

/-! ## Status -/

theorem exec_statusWord {s : State} (h : Ready s) :
    exec .statusWord s = .next { s with result := .word (statusWordOf s.seq) } := whenReady_of_ready h _

/-! ## The obligations -/

/-- Settles O32: `putStatusBit` gives the byte, and `getStatusBit_putStatusBit` reads its eight bits. -/
theorem statusSetBitWritesOneBit : Obligations.StatusSetBitWritesOneBit :=
  ⟨hasCode_statusSetBit, fun i v s h =>
    ⟨putStatusBit s.seq.status i v, whenReady_of_ready h _, fun j => getStatusBit_putStatusBit s.seq.status i j v⟩⟩

/-- Settles O23: a ready engine is initialised, so HostReset is the whole of `PostInit`. -/
theorem resetGivesPostInitAndKeepsCap : Obligations.ResetGivesPostInitAndKeepsCap := by
  refine ⟨hasCode_of_decodeRequest fun _ => rfl, fun s h => ?_⟩
  obtain ⟨_, initialised⟩ := id h
  rw [exec_reset h, hostReset_eq_postInit, initialised]
  rfl

/-- Settles O25: the three cases of `tickEffect_cases`, each excluded by the others' timers. -/
theorem tickCountsDownAndCancelsAtZero : Obligations.TickCountsDownAndCancelsAtZero := by
  refine ⟨hasCode_of_decodeRequest fun _ => rfl, fun e s h => ?_⟩
  rw [exec_tick e h]
  obtain ⟨disarmed, effect⟩ | ⟨armed, due, effect⟩ | ⟨running, effect⟩ := tickEffect_cases e s <;> rw [effect]
  · exact ⟨fun _ => rfl, fun running => by bv_omega, fun armed => absurd disarmed armed⟩
  · exact ⟨fun disarmed => absurd disarmed armed, fun running => by bv_omega, fun _ _ => rfl⟩
  · exact ⟨fun disarmed => by bv_omega, fun _ => rfl, fun _ due => by bv_omega⟩

/-- Settles O27: the result is the length of `committed`. -/
theorem availableCountsCommitted : Obligations.AvailableCountsCommitted :=
  ⟨hasCode_of_decodeRequest fun _ => rfl, fun _ h => whenReady_of_ready h _⟩

/-- Settles O30: the seven consumes are the one template, `consume`. -/
theorem consumeReturnsAndClearsItsLatch : Obligations.ConsumeReturnsAndClearsItsLatch := by
  refine ⟨?codes, fun s h => ?answers⟩
  case codes => and_intros <;> exact hasCode_of_decodeRequest fun _ => rfl
  case answers => and_intros <;> exact consume_of_ready h _ _

/-- Settles O31: each accessor returns its field through the gate of R229. -/
theorem printAccessorsReturnTheirFieldsOrNone : Obligations.PrintAccessorsReturnTheirFieldsOrNone := by
  refine ⟨?codes, fun s h => ?answers⟩
  case codes => and_intros <;> exact hasCode_of_decodeRequest fun _ => rfl
  case answers =>
    rw [exec_piSheets h, exec_piLfBefore h, exec_piLfAfter h, exec_piPalette h, exec_piDensity h]
    exact ⟨fun received => by simp only [gated_of_received received, and_self],
      fun absent => by simp only [gated_of_not_received absent, and_self]⟩

/-- Settles O33: the status word is `0x8100 | status` by `statusWordOf_eq`. -/
theorem statusReadsReturnBitAndWord : Obligations.StatusReadsReturnBitAndWord := by
  refine ⟨hasCode_statusGetBit, hasCode_of_decodeRequest fun _ => rfl, fun i s h => ⟨whenReady_of_ready h _, ?word⟩⟩
  case word => rw [exec_statusWord h, statusWordOf_eq]

end Sys2Proof.Machine
end

section
/-! The response to what goes wrong (spec/60_exceptions.md R240, R251, R252): no operation faults, the foreground keeps the
engine where the edge port left it, and only the edge port re-arms the timer. -/

namespace Sys2Proof.Machine

/-! ## No fault -/

/-- From a legal control point an operation completes or is refused (00_scope.md R15, R16). -/
theorem exec_ne_fault {s : State} (hc : controlPoint s = true) (i : Instr) (f : Fault) : exec i s ≠ .fault f := by
  by_cases refused : ∃ r, exec i s = .refused r
  · obtain ⟨r, e⟩ := refused
    simp [e]
  · rw [exec_refused_iff, not_or, not_or] at refused
    obtain ⟨hraw, hinit, hw⟩ := refused
    obtain ⟨t, e⟩ := exec_completes hc (by simpa using hraw) (by simpa [or_iff_not_imp_left] using hinit) hw
    simp [e]

theorem transmit_ne_fault {s : State} (hc : controlPoint s = true) (bytes : List Byte) (f : Fault) :
    transmit bytes s ≠ .fault f := by
  intro h
  obtain ⟨ready, _⟩ := whenReady_fault h
  rw [transmit_eq ready hc] at h
  cases h

theorem execUndecoded_ne_fault {s : State} (hc : controlPoint s = true) (x : Input) (f : Fault) :
    execUndecoded x s ≠ .fault f := by
  cases x with
  | wire bytes => exact transmit_ne_fault hc bytes f
  | request r => exact nofun

/-- A step serves its input at the control point it found: taking the input from the schedule does not move it. -/
theorem step_ne_fault {s : State} (hc : controlPoint s = true) (f : Fault) : step s ≠ .fault f := by
  cases hq : s.inputs with
  | nil =>
    rw [step_nil hc hq]
    exact nofun
  | cons x rest =>
    have taken : controlPoint { s with inputs := rest } = true := hc
    cases hd : decode x with
    | ok i =>
      rw [step_cons_ok hc hq hd]
      exact exec_ne_fault taken i f
    | error e =>
      rw [step_cons_error hc hq hd]
      exact execUndecoded_ne_fault taken x f

/-! ## The foreground -/

/-- What a foreground operation that neither resets nor ticks leaves to the edge port (R252, 20_memory.md R84); the fields
of `SameInstance` stay besides. -/
structure LeftToTheEdgePort (s t : State) : Prop where
  shifter : t.shifter = s.shifter
  sync : t.sync = s.sync
  packet : t.packet = s.packet
  timer : t.timer = s.timer
  printInstruction : t.printInstruction = s.printInstruction
  resetReport : t.resetReport = s.resetReport
  staged : t.fifo.staged = s.fifo.staged
  dataPackets : t.seq.dataPacketsRemaining = s.seq.dataPacketsRemaining
  untransmitted : t.seq.untransmittedRemaining = s.seq.untransmittedRemaining
  busy : t.seq.busyRemaining = s.seq.busyRemaining

theorem Foreground.leftToTheEdgePort {i : Instr} {s t : State} (f : Foreground s i t) (reset : isHostReset i = false)
    (tick : ∀ e, i ≠ .tick e) : LeftToTheEdgePort s t := by
  cases f with
  | initEngine cap => cases reset
  | reset => cases reset
  | tick e => exact absurd rfl (tick e)
  | takeOne => obtain ⟨_, f⟩ | ⟨_, _, f⟩ | ⟨_, _, _, _, f⟩ := ringTake_cases s <;> rw [f] <;> constructor <;> rfl
  | peek k => obtain ⟨_, f⟩ | ⟨_, f⟩ := ringPeek_cases k s <;> rw [f] <;> constructor <;> rfl
  | consume hi r l hl => constructor <;> rfl
  | statusSetBit k v => constructor <;> rfl
  | value v => constructor <;> rfl

theorem isInitEngine_of_not_isHostReset {i : Instr} (h : isHostReset i = false) : isInitEngine i = false := by
  cases i with
  | initEngine cap => cases h
  | _ => rfl

/-! ## The timer -/

theorem zero_le_millis (m : Millis) : 0#32 ≤ m := BitVec.le_def.2 (Nat.zero_le _)

/-- A foreground operation leaves the timer, counts it down (TICK) or disarms it (a reset) (R251). -/
theorem Foreground.timer_le {i : Instr} {s t : State} (f : Foreground s i t) : t.timer ≤ s.timer := by
  cases f with
  | initEngine cap => exact zero_le_millis _
  | reset => exact zero_le_millis _
  | tick e =>
    obtain ⟨_, f⟩ | ⟨_, _, f⟩ | ⟨running, f⟩ := tickEffect_cases e s <;> rw [f]
    · exact BitVec.le_refl _
    · exact zero_le_millis _
    · show s.timer - e ≤ s.timer
      bv_omega
  | takeOne => obtain ⟨_, f⟩ | ⟨_, _, f⟩ | ⟨_, _, _, _, f⟩ := ringTake_cases s <;> rw [f] <;> exact BitVec.le_refl _
  | peek k => obtain ⟨_, f⟩ | ⟨_, f⟩ := ringPeek_cases k s <;> rw [f] <;> exact BitVec.le_refl _
  | consume hi r l hl => exact BitVec.le_refl _
  | statusSetBit k v => exact BitVec.le_refl _
  | value v => exact BitVec.le_refl _

theorem exec_onEdge_next {c d : Bool} {s t : State} (he : exec (.onEdge c d) s = .next t) :
    t = returnSout (edgeEffect c d s) := by
  obtain ⟨hr, hw⟩ := ready_of_exec_next rfl he
  rw [exec_onEdge_eq c d hr (by simpa [WrongDiscipline] using hw)] at he
  cases c with
  | true =>
    obtain ⟨_, he⟩ := whenControlled_next he
    cases he
    rfl
  | false =>
    cases he
    rfl

theorem exec_onRising_next {d : Bool} {s t : State} (he : exec (.onRising d) s = .next t) :
    t = returnSout (driveOut (sampleRising d s)) := by
  obtain ⟨hr, hw⟩ := ready_of_exec_next rfl he
  rw [exec_onRising_eq d hr (by simpa [WrongDiscipline] using hw)] at he
  obtain ⟨_, he⟩ := whenControlled_next he
  cases he
  rfl

/-- Under either discipline a rising edge does to the timer what its sampling does: a drive leaves it
(40_bit_shifter.md R133, R135). -/
theorem exec_rising_timer {i : Instr} {d : Bool} {s t : State} (hi : i = .onEdge true d ∨ i = .onRising d)
    (he : exec i s = .next t) : t.timer = (sampleRising d s).timer := by
  obtain rfl | rfl := hi
  · rw [exec_onEdge_next he]
    rfl
  · rw [exec_onRising_next he]
    rfl

section
variable (d : Bool) {s : State}

theorem sampleRising_timer_within (hs : s.sync.synced = true) (hm : s.shifter.mask >>> 1 ≠ 0#16) :
    (sampleRising d s).timer = s.timer := by
  rw [sampleRising_within d hs hm]
  rfl

theorem sampleRising_timer_last (hs : s.sync.synced = true) (hm : s.shifter.mask >>> 1 = 0#16) :
    (sampleRising d s).timer =
      if s.packet.pstate = .dummy ∧ s.packet.command = 0x08#8 then 0#32 else s.config.timeoutMs := by
  rw [sampleRising_last d hs hm, transition_timer]
  simp only [State.withShifter_packet, State.withShifter_config, classify_eq_break]

theorem sampleRising_timer_unsynced (hs : s.sync.synced = false) :
    (sampleRising d s).timer = if shiftWindow d s.sync.window = magic then s.config.timeoutMs else s.timer := by
  rw [sampleRising_unsynced d hs]
  obtain ⟨hw, e⟩ | ⟨hw, e⟩ := syncStep_cases d s <;> rw [e]
  · rw [if_pos hw]
    rfl
  · rw [if_neg hw]
    rfl

/-- A rising edge leaves the timer, refills it or disarms it. -/
theorem sampleRising_timer_cases (s : State) :
    (sampleRising d s).timer = s.timer ∨ (sampleRising d s).timer = s.config.timeoutMs ∨ (sampleRising d s).timer = 0#32 := by
  cases hs : s.sync.synced
  · rw [sampleRising_timer_unsynced d hs]
    split <;> simp
  · by_cases hm : s.shifter.mask >>> 1 = 0#16
    · rw [sampleRising_timer_last d hs hm]
      split <;> simp
    · exact .inl (sampleRising_timer_within d hs hm)

end

/-- The timer of `t` is the one of `s`, TIMEOUT_MS of the same configuration, or disarmed. -/
structure TimerKeptRefilledOrDisarmed (s t : State) : Prop where
  config : t.config = s.config
  timer : t.timer = s.timer ∨ t.timer = s.config.timeoutMs ∨ t.timer = 0#32

theorem keptOnTheLine_timer (s : State) : KeptOnTheLine (TimerKeptRefilledOrDisarmed s) where
  driveOut _ h := ⟨h.config, h.timer⟩
  sampleRising d u h := by
    refine ⟨(sampleRising_same d u).config.trans h.config, ?_⟩
    obtain kept | refilled | disarmed := sampleRising_timer_cases d u
    · rw [kept]
      exact h.timer
    · exact .inr (.inl (by rw [refilled, h.config]))
    · exact .inr (.inr disarmed)
  withResult _ _ h := ⟨h.config, h.timer⟩

/-! ## The obligations -/

/-- Settles O10: at a legal control point what is not refused completes, and a step serves its input there. -/
theorem noOperationFaults : Obligations.NoOperationFaults :=
  fun _ hc => ⟨exec_ne_fault hc, step_ne_fault hc⟩

/-- Settles O20: `SameInstance` of every operation but INIT_ENGINE, and what each foreground operation leaves to the edge
port. -/
theorem foregroundOperationFrame : Obligations.ForegroundOperationFrame := by
  intro i s t hc hg reset tick he
  have same := exec_sameInstance (isInitEngine_of_not_isHostReset reset) he
  have left := (exec_foreground hc hg he).leftToTheEdgePort reset tick
  exact ⟨same.initialised, left.shifter, left.sync, left.packet, left.timer, left.printInstruction, left.resetReport,
    same.config, same.inputs, same.cap, left.staged, left.dataPackets, left.untransmitted, left.busy⟩

/-- Settles O26: the foreground by its cases, a rising edge by the timer of `sampleRising`, a frame because what an edge does
to the timer is kept on the line. -/
theorem timerIsRearmedOnlyByTheEdgePort : Obligations.TimerIsRearmedOnlyByTheEdgePort := by
  intro i s t he
  refine ⟨fun hc hg => (exec_foreground hc hg he).timer_le, ?falling, fun d hi => ?rising, fun hi => ?frame⟩
  case falling =>
    rintro d rfl
    rw [exec_onEdge_next he]
    rfl
  case rising =>
    rw [exec_rising_timer hi he]
    exact ⟨sampleRising_timer_within d, sampleRising_timer_last d, sampleRising_timer_unsynced d⟩
  case frame => exact ((keptOnTheLine_timer s).commandRow hi ⟨rfl, .inl rfl⟩ he).timer

end Sys2Proof.Machine
end

section
/-! Reset and power-on (spec/70_reset_and_hazards.md R270–R273, R276): what the reset states are, and that a reset repeated
changes nothing. -/

namespace Sys2Proof.Machine

/-! ## The two resets -/

/-- `PostInit` is HostReset's work on itself: nothing is left to reset (R270, R271). -/
theorem hostReset_postInit (cfg : Config) (cap : Nat) : hostReset (State.postInit cfg cap) = State.postInit cfg cap := rfl

/-- The power-on state differs from `PostInit` in `initialised` alone, which no reset writes (R32). -/
theorem hostReset_powerOn (cfg : Config) : hostReset (State.powerOn cfg) = State.powerOn cfg := rfl

theorem hostReset_hostReset (s : State) : hostReset (hostReset s) = hostReset s := rfl

theorem cancelReset_cancelReset (r : CancelReason) (s : State) : cancelReset r (cancelReset r s) = cancelReset r s := rfl

theorem exec_reset_next {s t : State} (he : exec .reset s = .next t) : Ready s ∧ t = hostReset s := by
  obtain ⟨ready, done⟩ := whenReady_next (s := s) (go := .next (hostReset s)) he
  cases done
  exact ⟨ready, rfl⟩

/-- INIT_ENGINE asks only for a configuration without `raw_dump` (R200, R276). -/
theorem exec_initEngine {s : State} (h : s.config.rawDump = false) (cap : Nat) :
    exec (.initEngine cap) s =
      .next (hostReset ((s.withInitialised true).withFifo { s.fifo with cap := cap })) :=
  if_neg (ne_true_of_eq_false h)

/-! ## The BREAK packet -/

/-- Where a BREAK packet leaves the engine, when the master read `back`: the latches are raised, then the cancellation reset
runs (R183, R272). -/
def breakPacketEnd (back : List Byte) (s : State) : State :=
  (cancelReset .break_
    (s.withLatches { s.latches with breakReceived := true, packetCompleted := true })).withResult (.back back)

theorem exec_breakPacket (comp : Byte) {s : State} (h : ReadyForFrame s) :
    ∃ back, exec (.cmdBreak (pkt 0x08#8 comp [])) s = .next (breakPacketEnd back s) :=
  ⟨_, breakFrameCancelsEverything (pkt 0x08#8 comp []) s _ _ _ _ [] rfl h rfl⟩

/-- The cancellation reset leaves the engine where a frame begins. -/
theorem readyForFrame_breakPacketEnd {s : State} (h : Ready s) (back : List Byte) :
    ReadyForFrame (breakPacketEnd back s) := ⟨h, ⟨rfl, rfl, rfl, rfl, rfl⟩, rfl⟩

/-- The latches a BREAK raises outlive its reset, so a second BREAK finds nothing to change but what the master reads. -/
theorem breakPacketEnd_breakPacketEnd (back back' : List Byte) (s : State) :
    breakPacketEnd back' (breakPacketEnd back s) = { breakPacketEnd back s with result := .back back' } := rfl

/-! ## The obligations -/

/-- Settles O24: `hostReset`, `cancelReset` and `breakPacketEnd` are idempotent, and each leaves the engine ready for the
repetition. -/
theorem resetsAreIdempotent : Obligations.ResetsAreIdempotent := by
  refine ⟨fun s t he => ?reset, cancelReset_cancelReset, fun comp s t h he => ?breakPacket⟩
  case reset =>
    obtain ⟨ready, rfl⟩ := exec_reset_next he
    rw [exec_reset (s := hostReset s) ready, hostReset_hostReset]
  case breakPacket =>
    obtain ⟨back, first⟩ := exec_breakPacket comp h
    obtain rfl : breakPacketEnd back s = t := Host.Outcome.next.inj (first.symm.trans he)
    obtain ⟨ready, _⟩ := h
    obtain ⟨back', second⟩ := exec_breakPacket comp (readyForFrame_breakPacketEnd ready back)
    exact ⟨_, second, breakPacketEnd_breakPacketEnd back back' s⟩

/-- Settles O9: each of the three states is its own HostReset, which meets the invariant by `inv_hostReset`. -/
theorem resetAndPowerOnMeetTheInvariant : Obligations.ResetAndPowerOnMeetTheInvariant := by
  have postInit (cfg : Config) (cap : Nat) : Inv (State.postInit cfg cap) :=
    hostReset_postInit cfg cap ▸ inv_hostReset (State.postInit cfg cap)
  have powerOn (cfg : Config) : Inv (State.powerOn cfg) := hostReset_powerOn cfg ▸ inv_hostReset (State.powerOn cfg)
  exact ⟨postInit Config.default State.resetCap, postInit, powerOn⟩

/-- Settles O21: HostReset after CAP and `initialised` are written is `PostInit` of the new capacity. -/
theorem initEngineGivesPostInit : Obligations.InitEngineGivesPostInit := by
  refine ⟨hasCode_of_decodeRequest fun _ => rfl, fun cap s h => ?_⟩
  rw [exec_initEngine h, hostReset_eq_postInit]
  rfl

/-- Settles O22: the fields by definition, the control point by the invariant of `PostInit`. -/
theorem postInitFieldsAreZero : Obligations.PostInitFieldsAreZero := by
  intro cfg cap
  obtain ⟨_, postInit, _⟩ := resetAndPowerOnMeetTheInvariant
  obtain ⟨control, _⟩ := postInit cfg cap
  exact ⟨rfl, rfl, rfl, rfl, rfl, rfl, rfl, rfl, rfl, rfl, control, rfl⟩

end Sys2Proof.Machine
end
